-- ==== Sys2Proof/Word.lean ====
section
/-! DEFINITION. The two word types of the wire: bytes and 32-bit fields (00_scope R1, R6; 20_memory R31). -/

namespace Sys2Proof

/-- A byte of the wire, of a buffer, or a one-byte register (00_scope R6). -/
abbrev Byte := BitVec 8

/-- A 32-bit field pattern, read as `s32` by `BitVec.toInt` and as `u32` by `BitVec.toNat` (00_scope R6). -/
abbrev Word := BitVec 32

end Sys2Proof
end

