-- ==== Sys2Proof/Syntax.lean ====
section
/-! DEFINITION. The syntax: command-code families, payload shapes, frames, operands of the host operations, what the host can
issue, and `Instr`, one constructor for each row of spec/opcode_table.json. -/

namespace Sys2Proof

/-- The nine families that partition the 256 command codes (30_encoding R55). -/
inductive Family where
  | reqSet | ackSet | reqCtl | ackCtl | reqRd | rspRd | reqI2c | rspI2c | other
deriving DecidableEq, Repr

/-- The payload shapes of 30_encoding R60. -/
inductive Shape where
  | settings | readTrigger | motorStatus | otherStatus | pidRbSpeed | pidRbPos
  | i2cRdregReq | i2cWrregReq | i2cRdrawReq | i2cWrrawReq
  | i2cRdregResp | i2cWrregResp | i2cRdrawResp | i2cWrrawResp
deriving DecidableEq, Repr

/-- Request framing, or response framing with its second marker byte, which no decoder compares with 0x55
(30_encoding R52, R53; 42_decode R106). -/
inductive Framing where
  | request
  | response (magic2 : Byte)
deriving DecidableEq, Repr

/-- What stands around the command code before the payload (30_encoding R52, R53, R54). -/
structure Header where
  framing : Framing
  deviceId : Byte
deriving DecidableEq, Repr

/-- The three s32 words of a `SETTINGS` payload (30_encoding R61). -/
structure SettingsData where
  data1 : Word
  data2 : Word
  data3 : Word
deriving DecidableEq, Repr, Inhabited

/-- The fields of a `MOTOR_STATUS` payload (30_encoding R63). -/
structure MotorData where
  speed : Word
  position : Word
  current : Word
  mode : Byte
  status : Byte
  error : Byte
deriving DecidableEq, Repr

/-- The fields of an `OTHER_STATUS` payload (30_encoding R64). -/
structure OtherData where
  vin : Word
  temperature : Word
  encoderCounter : Word
  rgbMode : Byte
  rgbBrightness : Byte
  b2 : Byte
deriving DecidableEq, Repr

/-- The fields of a `PID_RB_SPEED` or `PID_RB_POS` payload (30_encoding R65). -/
structure PidData where
  kp : Word
  ki : Word
  kd : Word
  b0 : Byte
  b1 : Byte
  b2 : Byte
deriving DecidableEq, Repr

/-- A Frame value (10_state R17): the optional fields are present exactly in a response. -/
structure Frame where
  firstByte : Byte
  magic2 : Option Byte
  actualCommand : Option Byte
  deviceId : Byte
  shape : Shape
  payload : List Byte
  checksum : Byte
deriving DecidableEq, Repr

/-- The payload of an ENCODE operand: payload bytes, or typed fields as unbounded integers, which
43_encode R131 turns into bytes and R133 (4) range-checks. -/
inductive PayloadArg where
  | raw (bytes : List Byte)
  | settings (data1 data2 data3 : Int)
  | trigger (value : Int)
  | motorStatus (speed position current mode status error : Int)
  | otherStatus (vin temperature encoderCounter rgbMode rgbBrightness b2 : Int)
  | pid (kp ki kd b0 b1 b2 : Int)
deriving DecidableEq, Repr

/-- The Frame operand of ENCODE as the host gives it, well-formed or not (43_encode R131, R133). -/
structure FrameArg where
  firstByte : Int
  magic2 : Option Int
  actualCommand : Option Int
  deviceId : Int
  shape : Shape
  payload : PayloadArg
  checksum : Int
deriving DecidableEq, Repr

/-- An operand of a host operation, passed by value (10_state R18). -/
inductive Operand where
  | int (v : Int)
  | bytes (b : List Byte)
  | frame (f : FrameArg)
deriving DecidableEq, Repr

/-- What the block can be asked to handle (30_encoding R50): a host operation, by its 4-bit op-select number and its operands,
or a wire frame, by its bytes in wire order. -/
inductive Request where
  | op (sel : BitVec 4) (args : List Operand)
  | frame (bytes : List Byte)
deriving DecidableEq, Repr

/-- A physical value of the surface layer: an exact rational, or a non-finite input (45_scaling_surface R171). -/
inductive Phys where
  | finite (q : Rat)
  | nonFinite
deriving DecidableEq, Repr

/-- The arguments of the four I2C pseudo-operations (45_scaling_surface R193). -/
structure I2cArgs where
  addr : Nat
  regLen : Nat
  regAddr : Nat
  dataLen : Nat
  stop : Bool
  data : List Byte
deriving DecidableEq, Repr

/-- The 24 pseudo-operations of the logical command surface, in the rows' order (45_scaling_surface R190). -/
inductive SurfaceOp where
  | motor (on : Bool)
  | setMode (mode : Phys)
  | removeProtection (status : Phys)
  | commitFlash
  | setEncoderCount (count : Phys)
  | setButtonMode (mode : Phys)
  | setRgb (r g b mode brightness : Phys)
  | setBaudRate (rate : Phys)
  | setDeviceId (id : Phys)
  | jamProtection (flag : Phys)
  | rangeProtection (flag : Phys)
  | setSpeed (speed maxCurrent : Phys)
  | setSpeedPid (p i d : Phys)
  | setPosition (position maxCurrent : Phys)
  | setPositionPid (p i d : Phys)
  | setCurrent (current : Phys)
  | readMotorStatus
  | readAuxStatus
  | readSpeedPid
  | readPositionPid
  | i2cReadRegister (args : I2cArgs)
  | i2cWriteRegister (args : I2cArgs)
  | i2cReadRaw (args : I2cArgs)
  | i2cWriteRaw (args : I2cArgs)
deriving DecidableEq, Repr

/-- What the host's transport layer does to the channel between operations (20_memory R40; 70_reset_and_hazards R233, R243). -/
inductive TransportEvent where
  | opened
  | closed
  | flushed
deriving DecidableEq, Repr

/-- One thing that reaches the block from outside, taken by one step (00_scope R8). -/
inductive Input where
  | request (r : Request)
  | surface (op : SurfaceOp)
  | transport (ev : TransportEvent)
deriving DecidableEq, Repr

/-- One constructor per row of spec/opcode_table.json. The wire rows carry the frame's fields in typed form (30_encoding R61 to
R68); their header says which framing stands around the code, since every code decodes in both (R76). The host operations carry
the operands of 30_encoding R51, integers unbounded. -/
inductive Instr where
  /-- Plain settings, requests 0x00 to 0x0E (30_encoding R55, R61). -/
  | set00 (h : Header) (d : SettingsData) (k : Byte)
  | set01 (h : Header) (d : SettingsData) (k : Byte)
  | set02 (h : Header) (d : SettingsData) (k : Byte)
  | set03 (h : Header) (d : SettingsData) (k : Byte)
  | set04 (h : Header) (d : SettingsData) (k : Byte)
  | set05 (h : Header) (d : SettingsData) (k : Byte)
  | set06 (h : Header) (d : SettingsData) (k : Byte)
  | set07 (h : Header) (d : SettingsData) (k : Byte)
  | set08 (h : Header) (d : SettingsData) (k : Byte)
  | set09 (h : Header) (d : SettingsData) (k : Byte)
  | set0A (h : Header) (d : SettingsData) (k : Byte)
  | set0B (h : Header) (d : SettingsData) (k : Byte)
  | set0C (h : Header) (d : SettingsData) (k : Byte)
  | set0D (h : Header) (d : SettingsData) (k : Byte)
  | set0E (h : Header) (d : SettingsData) (k : Byte)
  /-- Acknowledgements of plain settings, 0x10 to 0x1E (30_encoding R55, R61). -/
  | ack10 (h : Header) (d : SettingsData) (k : Byte)
  | ack11 (h : Header) (d : SettingsData) (k : Byte)
  | ack12 (h : Header) (d : SettingsData) (k : Byte)
  | ack13 (h : Header) (d : SettingsData) (k : Byte)
  | ack14 (h : Header) (d : SettingsData) (k : Byte)
  | ack15 (h : Header) (d : SettingsData) (k : Byte)
  | ack16 (h : Header) (d : SettingsData) (k : Byte)
  | ack17 (h : Header) (d : SettingsData) (k : Byte)
  | ack18 (h : Header) (d : SettingsData) (k : Byte)
  | ack19 (h : Header) (d : SettingsData) (k : Byte)
  | ack1A (h : Header) (d : SettingsData) (k : Byte)
  | ack1B (h : Header) (d : SettingsData) (k : Byte)
  | ack1C (h : Header) (d : SettingsData) (k : Byte)
  | ack1D (h : Header) (d : SettingsData) (k : Byte)
  | ack1E (h : Header) (d : SettingsData) (k : Byte)
  /-- Closed-loop control settings, 0x20 to 0x24 (30_encoding R55, R61). -/
  | ctl20 (h : Header) (d : SettingsData) (k : Byte)
  | ctl21 (h : Header) (d : SettingsData) (k : Byte)
  | ctl22 (h : Header) (d : SettingsData) (k : Byte)
  | ctl23 (h : Header) (d : SettingsData) (k : Byte)
  | ctl24 (h : Header) (d : SettingsData) (k : Byte)
  /-- Acknowledgements of control settings, 0x30 to 0x34 (30_encoding R55, R61). -/
  | cack30 (h : Header) (d : SettingsData) (k : Byte)
  | cack31 (h : Header) (d : SettingsData) (k : Byte)
  | cack32 (h : Header) (d : SettingsData) (k : Byte)
  | cack33 (h : Header) (d : SettingsData) (k : Byte)
  | cack34 (h : Header) (d : SettingsData) (k : Byte)
  /-- Status read requests, 0x40 to 0x43 (30_encoding R62). -/
  | rd40 (h : Header) (trigger : Byte) (k : Byte)
  | rd41 (h : Header) (trigger : Byte) (k : Byte)
  | rd42 (h : Header) (trigger : Byte) (k : Byte)
  | rd43 (h : Header) (trigger : Byte) (k : Byte)
  /-- Motor status readback, 0x50 (30_encoding R63). -/
  | rb50 (h : Header) (d : MotorData) (k : Byte)
  /-- Auxiliary status readback, 0x51 (30_encoding R64). -/
  | rb51 (h : Header) (d : OtherData) (k : Byte)
  /-- PID readbacks, 0x52 and 0x53 (30_encoding R65). -/
  | rb52 (h : Header) (d : PidData) (k : Byte)
  | rb53 (h : Header) (d : PidData) (k : Byte)
  /-- I2C requests 0x60 to 0x63 with 5, 22, 2, 22 opaque bytes (30_encoding R66, R67). -/
  | i2cRdregReq (h : Header) (raw : List Byte) (k : Byte)
  | i2cWrregReq (h : Header) (raw : List Byte) (k : Byte)
  | i2cRdrawReq (h : Header) (raw : List Byte) (k : Byte)
  | i2cWrrawReq (h : Header) (raw : List Byte) (k : Byte)
  /-- I2C responses 0x70 to 0x73 with 22, 1, 22, 1 opaque bytes (30_encoding R66, R68). -/
  | i2cRdregResp (h : Header) (raw : List Byte) (k : Byte)
  | i2cWrregResp (h : Header) (raw : List Byte) (k : Byte)
  | i2cRdrawResp (h : Header) (raw : List Byte) (k : Byte)
  | i2cWrrawResp (h : Header) (raw : List Byte) (k : Byte)
  /-- The fallback row of request framing: a code of no family (30_encoding R72, R75). -/
  | otherReq (command deviceId : Byte) (d : SettingsData) (k : Byte)
  /-- The fallback row of response framing: a code of no family (30_encoding R72, R75). -/
  | otherResp (magic2 command deviceId : Byte) (d : SettingsData) (k : Byte)
  /-- Host operation 0 (40_checksum R81). -/
  | checksum (S : List Byte)
  /-- Host operation 1 (41_frame_length R91). -/
  | frameLength (command : Int)
  /-- Host operation 2 (42_decode R101). -/
  | decode (B : List Byte)
  /-- Host operation 3 (43_encode R131). -/
  | encode (F : FrameArg)
  /-- Host operation 4 (44_exchange R140). -/
  | setTarget (id : Int)
  /-- Host operation 5 (44_exchange R144). -/
  | sendSetting (command data1 data2 data3 : Int)
  /-- Host operation 6 (44_exchange R148). -/
  | verifySettingResponse (command data1 data2 data3 : Int)
  /-- Host operation 7 (44_exchange R154). -/
  | requestStatus (command : Int)
  /-- Host operation 8 (44_exchange R160). -/
  | i2cExchange (command : Int) (raw : List Byte)
deriving DecidableEq, Repr

end Sys2Proof
end

