-- ==== Sys2Proof/Config.lean ====
section
/-! DEFINITION. What an implementation fixes: the parameters of 00_scope R5 as plain data, and the free values, which have no
body, so that nothing can be proved of the number behind one. -/

namespace Sys2Proof

/-- A named field of the overlay on opaque I2C payload bytes (30_encoding R69, R70). -/
inductive I2cField where
  | addr | regLen | regAddr | dataLen | stop | data | result
deriving DecidableEq, Repr

/-- Where one named field lies: payload offset and width in whole bytes, little-endian, as every entry of the default does
(30_encoding R70). That an overlay is made of such slots, of these seven names, is the model's choice (DESIGN CHOICE, log 31). -/
structure I2cSlot where
  field : I2cField
  offset : Nat
  width : Nat
deriving DecidableEq, Repr

/-- `I2C_FIELD_MAP`: the slots of each I2C shape (30_encoding R70). R5 leaves the form of an overlay open; this one is the
model's choice (DESIGN CHOICE, log 31). -/
structure I2cFieldMap where
  rdregReq : List I2cSlot
  wrregReq : List I2cSlot
  rdrawReq : List I2cSlot
  wrrawReq : List I2cSlot
  rdregResp : List I2cSlot
  wrregResp : List I2cSlot
  rdrawResp : List I2cSlot
  wrrawResp : List I2cSlot
deriving DecidableEq, Repr

/-- The codes of `SURFACE_CODE`: the command code of each pseudo-operation, in the rows' order (45_scaling_surface R190). -/
structure SurfaceCodes where
  motor : Byte
  setMode : Byte
  removeProtection : Byte
  commitFlash : Byte
  setEncoderCount : Byte
  setButtonMode : Byte
  setRgb : Byte
  setBaudRate : Byte
  setDeviceId : Byte
  jamProtection : Byte
  rangeProtection : Byte
  setSpeed : Byte
  setSpeedPid : Byte
  setPosition : Byte
  setPositionPid : Byte
  setCurrent : Byte
  readMotorStatus : Byte
  readAuxStatus : Byte
  readSpeedPid : Byte
  readPositionPid : Byte
  i2cReadRegister : Byte
  i2cWriteRegister : Byte
  i2cReadRaw : Byte
  i2cWriteRaw : Byte
deriving DecidableEq, Repr

/-- What fills one of the words `data1`, `data2`, `data3` of a setting: the wire word of the argument with that index, counted from
0 in the order the surface names them, or a fixed word (45_scaling_surface R190; log 22). -/
inductive WordSource where
  | arg (index : Nat)
  | const (value : Word)
deriving DecidableEq, Repr

/-- The use of `data1..3` by one setting (00_scope R5; 45_scaling_surface R190). -/
structure WordUse where
  data1 : WordSource
  data2 : WordSource
  data3 : WordSource
deriving DecidableEq, Repr

/-- The part of `SURFACE_CODE` that maps a pseudo-operation "to the use of `data1..3`" (00_scope R5; 45_scaling_surface R190;
93_implementation_defined U20), for the settings whose use the spec does not settle. Motor on of row 1 and row 3 are settled (R190 by the
source, R194), and row 4 has no argument: its words are `Config.commitWords`. -/
structure SurfaceWords where
  /-- The use for motor off, whose one argument is `MOTOR_OFF_VALUE` (45_scaling_surface R190 row 1; log 22). -/
  motorOff : WordUse
  setMode : WordUse
  setEncoderCount : WordUse
  /-- The factor of an encoder count, "scale not in source" (45_scaling_surface R190 row 5). -/
  encoderScale : Rat
  setButtonMode : WordUse
  setRgb : WordUse
  setBaudRate : WordUse
  setDeviceId : WordUse
  jamProtection : WordUse
  rangeProtection : WordUse
  setSpeed : WordUse
  setSpeedPid : WordUse
  setPosition : WordUse
  setPositionPid : WordUse
  setCurrent : WordUse
deriving DecidableEq, Repr

/-- The parameters of 00_scope R5. State carries one such record and no step writes it (log 17). -/
structure Config where
  /-- `STRICT_UNKNOWN` (42_decode R109). -/
  strictUnknown : Bool
  /-- `READ_TRIGGER_BYTE` (44_exchange R153). -/
  readTrigger : Byte
  /-- `T_SETTLE`, in whatever unit: no rule depends on it (60_exceptions R216). -/
  tSettle : Nat
  /-- `TRANSPORT_TIMEOUT`, in whatever unit: it belongs to the transport, and no rule depends on it (20_memory R40; log 29). -/
  transportTimeout : Nat
  /-- `I2C_FIELD_MAP` (30_encoding R70). -/
  i2cMap : I2cFieldMap
  /-- `SURFACE_CODE`, the codes (45_scaling_surface R190). -/
  surface : SurfaceCodes
  /-- `SURFACE_CODE`, the use of `data1..3` (00_scope R5; 45_scaling_surface R190). -/
  words : SurfaceWords
  /-- `MOTOR_OFF_VALUE`, an s32 (00_scope R5; 45_scaling_surface R190 row 1). `SurfaceWords.motorOff` says which word carries it. -/
  motorOff : Word
  /-- The three words of the flash-commit frame, "word values not in source" (45_scaling_surface R190 row 4). -/
  commitWords : SettingsData
deriving DecidableEq, Repr

/-- What the transport does with one `write`: it takes the whole string, or raises after `sent` bytes of it reached the bus
(20_memory R40; 60_exceptions R203). -/
inductive WriteAnswer where
  | accept
  | raise (sent : Nat)
deriving DecidableEq, Repr, Inhabited

/-- What the transport does with one `read(n)`. `arrivals` are the bytes that joined the incoming stream since the last call.
`deliver` returns the oldest `min count n` bytes of the stream, or fewer if it holds fewer. `raise` raises after `taken` of its bytes
are gone (20_memory R40 to R42; 60_exceptions R203). -/
inductive ReadAnswer where
  | deliver (arrivals : List Byte) (count : Nat)
  | raise (arrivals : List Byte) (taken : Nat)
deriving DecidableEq, Repr, Inhabited

/-- Free value: `READ_TRIGGER_BYTE` of the machine after reset (00_scope R5, 92 D12; log 18). -/
opaque Config.freeReadTrigger : Byte

/-- Free value: `T_SETTLE` of the machine after reset (00_scope R5, 92 D18; log 18). -/
opaque Config.freeSettle : Nat

/-- Free value: `TRANSPORT_TIMEOUT` of the machine after reset (00_scope R5, 93 U13; log 18). -/
opaque Config.freeTimeout : Nat

/-- Free value: `MOTOR_OFF_VALUE` of the machine after reset (00_scope R5, 92 D26; log 18). -/
opaque Config.freeMotorOff : Word

/-- Free value: the words of the flash-commit frame of the machine after reset (45_scaling_surface R190 row 4; log 18). -/
opaque Config.freeCommitWords : SettingsData

/-- Free values: the codes of the ten plain settings the source leaves open, as a place among "fourteen remaining codes 0x01 to
0x0E" (45_scaling_surface R190; log 18). -/
opaque Config.freePlainCode : Fin 10 → Fin 14

/-- Free value: the answer to the `k`-th `write` call when none is scripted (20_memory R41; log 11). -/
opaque Config.freeWrite : Nat → WriteAnswer

/-- Free value: the answer to the `k`-th `read` call when none is scripted (20_memory R41; log 11). -/
opaque Config.freeRead : Nat → ReadAnswer

end Sys2Proof
end

