-- ==== Sys2Proof/Machine/Tables.lean ====
section
/-! DEFINITION. The constant tables of the block (10_state R23): families, shapes, sizes, lengths, the response code, and the
defaults of the open parameters. -/

namespace Sys2Proof

/-- The first marker byte, which alone makes a frame a response (30_encoding R57). -/
def magic1 : Byte := 0xAA#8

/-- The second marker byte "in every frame the protocol defines" (10_state R17). -/
def magicTwo : Byte := 0x55#8

/-- `MAX_FRAME` (41_frame_length R95). -/
def maxFrame : Nat := 27

/-- `MAX_PAYLOAD` (30_encoding R60). -/
def maxPayload : Nat := 22

/-- The code lies in a range, ends included. -/
def inRange (lo hi : Nat) (c : Byte) : Bool := decide (lo ≤ c.toNat) && decide (c.toNat ≤ hi)

/-- `FAMILY(c)` (30_encoding R55). -/
def family (c : Byte) : Family :=
  if inRange 0x00 0x0E c then .reqSet
  else if inRange 0x10 0x1E c then .ackSet
  else if inRange 0x20 0x24 c then .reqCtl
  else if inRange 0x30 0x34 c then .ackCtl
  else if inRange 0x40 0x43 c then .reqRd
  else if inRange 0x50 0x53 c then .rspRd
  else if inRange 0x60 0x63 c then .reqI2c
  else if inRange 0x70 0x73 c then .rspI2c
  else .other

/-- `SHAPE(c)`: the logical command alone selects the payload shape (30_encoding R59). -/
def shapeOf (c : Byte) : Shape :=
  if inRange 0x40 0x43 c then .readTrigger
  else if c = 0x50#8 then .motorStatus
  else if c = 0x51#8 then .otherStatus
  else if c = 0x52#8 then .pidRbSpeed
  else if c = 0x53#8 then .pidRbPos
  else if c = 0x60#8 then .i2cRdregReq
  else if c = 0x61#8 then .i2cWrregReq
  else if c = 0x62#8 then .i2cRdrawReq
  else if c = 0x63#8 then .i2cWrrawReq
  else if c = 0x70#8 then .i2cRdregResp
  else if c = 0x71#8 then .i2cWrregResp
  else if c = 0x72#8 then .i2cRdrawResp
  else if c = 0x73#8 then .i2cWrrawResp
  else .settings

/-- `PAYLOAD_SIZE(s)` (30_encoding R60). -/
def payloadSize (s : Shape) : Nat :=
  match s with
  | .settings => 12
  | .readTrigger => 1
  | .motorStatus => 15
  | .otherStatus => 15
  | .pidRbSpeed => 15
  | .pidRbPos => 15
  | .i2cRdregReq => 5
  | .i2cWrregReq => 22
  | .i2cRdrawReq => 2
  | .i2cWrrawReq => 22
  | .i2cRdregResp => 22
  | .i2cWrregResp => 1
  | .i2cRdrawResp => 22
  | .i2cWrrawResp => 1

/-- `HEADER_LEN(is_response)` (30_encoding R54). -/
def headerLen (isResponse : Bool) : Nat := if isResponse then 4 else 2

/-- `FRAME_LENGTH(c)`, by the ranges of 41_frame_length R91. -/
def frameLength (c : Byte) : Nat :=
  if inRange 0x40 0x43 c then 4
  else if inRange 0x50 0x53 c then 20
  else if c = 0x60#8 then 8
  else if c = 0x61#8 then 25
  else if c = 0x62#8 then 5
  else if c = 0x63#8 then 25
  else if c = 0x70#8 then 27
  else if c = 0x71#8 then 6
  else if c = 0x72#8 then 27
  else if c = 0x73#8 then 6
  else if inRange 0x10 0x1E c then 17
  else if inRange 0x30 0x34 c then 17
  else 15

/-- The four request families (30_encoding R55). -/
def isRequestFamily (f : Family) : Bool :=
  match f with
  | .reqSet | .reqCtl | .reqRd | .reqI2c => true
  | .ackSet | .ackCtl | .rspRd | .rspI2c | .other => false

/-- The four response families (30_encoding R55). -/
def isResponseFamily (f : Family) : Bool :=
  match f with
  | .ackSet | .ackCtl | .rspRd | .rspI2c => true
  | .reqSet | .reqCtl | .reqRd | .reqI2c | .other => false

/-- `RESP_CODE(c)`, which has no value outside the request families (44_exchange R141). -/
def respCode (c : Byte) : Option Byte :=
  if isRequestFamily (family c) then some (c + 0x10#8) else none

/-- The default overlay of the 22-byte I2C shapes (30_encoding R70). -/
def defaultLongOverlay : List I2cSlot :=
  [⟨.addr, 0, 1⟩, ⟨.regLen, 1, 1⟩, ⟨.regAddr, 2, 2⟩, ⟨.dataLen, 4, 1⟩, ⟨.stop, 5, 1⟩, ⟨.data, 6, 16⟩]

/-- The default `I2C_FIELD_MAP` (30_encoding R70). -/
def defaultFieldMap : I2cFieldMap where
  rdregReq := [⟨.addr, 0, 1⟩, ⟨.regLen, 1, 1⟩, ⟨.regAddr, 2, 2⟩, ⟨.dataLen, 4, 1⟩]
  wrregReq := defaultLongOverlay
  rdrawReq := [⟨.addr, 0, 1⟩, ⟨.dataLen, 1, 1⟩]
  wrrawReq := defaultLongOverlay
  rdregResp := defaultLongOverlay
  wrregResp := [⟨.result, 0, 1⟩]
  rdrawResp := defaultLongOverlay
  wrrawResp := [⟨.result, 0, 1⟩]

/-- The slots of a shape under a field map; the shapes that are no I2C shape have none (30_encoding R70). -/
def overlayOf (m : I2cFieldMap) (s : Shape) : List I2cSlot :=
  match s with
  | .i2cRdregReq => m.rdregReq
  | .i2cWrregReq => m.wrregReq
  | .i2cRdrawReq => m.rdrawReq
  | .i2cWrrawReq => m.wrrawReq
  | .i2cRdregResp => m.rdregResp
  | .i2cWrregResp => m.wrregResp
  | .i2cRdrawResp => m.rdrawResp
  | .i2cWrrawResp => m.wrrawResp
  | .settings | .readTrigger | .motorStatus | .otherStatus | .pidRbSpeed | .pidRbPos => []

/-- One of the ten open codes as a byte in 0x01 to 0x0E (45_scaling_surface R190; log 18). -/
def openPlainCode (k : Fin 10) : Byte := BitVec.ofNat 8 (1 + (Config.freePlainCode k).val)

/-- `SURFACE_CODE` with its partial defaults: motor on/off from the source, rows 12 to 24 by order, the rest open
(45_scaling_surface R190). -/
def defaultSurfaceCodes : SurfaceCodes where
  motor := 0x00#8
  setMode := openPlainCode 0
  removeProtection := openPlainCode 1
  commitFlash := openPlainCode 2
  setEncoderCount := openPlainCode 3
  setButtonMode := openPlainCode 4
  setRgb := openPlainCode 5
  setBaudRate := openPlainCode 6
  setDeviceId := openPlainCode 7
  jamProtection := openPlainCode 8
  rangeProtection := openPlainCode 9
  setSpeed := 0x20#8
  setSpeedPid := 0x21#8
  setPosition := 0x22#8
  setPositionPid := 0x23#8
  setCurrent := 0x24#8
  readMotorStatus := 0x40#8
  readAuxStatus := 0x41#8
  readSpeedPid := 0x42#8
  readPositionPid := 0x43#8
  i2cReadRegister := 0x60#8
  i2cWriteRegister := 0x61#8
  i2cReadRaw := 0x62#8
  i2cWriteRaw := 0x63#8

/-- Arguments fill `data1, data2, data3` in order, and a word without an argument is 0 ("by order", 45_scaling_surface R190). -/
def useByOrder (args : Nat) : WordUse where
  data1 := if 0 < args then .arg 0 else .const 0#32
  data2 := if 1 < args then .arg 1 else .const 0#32
  data3 := if 2 < args then .arg 2 else .const 0#32

/-- The use of `data1..3` by default (45_scaling_surface R190; the packed colour word is one argument, R177). R190 says nothing
of the words of motor off: that its value at reset is by order too, as 92_eei_decisions D26 fills the words, is the
model's choice (DESIGN CHOICE, log 22). -/
def defaultSurfaceWords : SurfaceWords where
  motorOff := useByOrder 1
  setMode := useByOrder 1
  setEncoderCount := useByOrder 1
  encoderScale := 1
  setButtonMode := useByOrder 1
  setRgb := useByOrder 2
  setBaudRate := useByOrder 1
  setDeviceId := useByOrder 1
  jamProtection := useByOrder 1
  rangeProtection := useByOrder 1
  setSpeed := useByOrder 2
  setSpeedPid := useByOrder 3
  setPosition := useByOrder 2
  setPositionPid := useByOrder 3
  setCurrent := useByOrder 1

/-- The parameters of the machine after reset: the decided ones at the values of 00_scope R5, the open ones free (log 18). -/
def defaultConfig : Config where
  strictUnknown := false
  readTrigger := Config.freeReadTrigger
  tSettle := Config.freeSettle
  transportTimeout := Config.freeTimeout
  i2cMap := defaultFieldMap
  surface := defaultSurfaceCodes
  words := defaultSurfaceWords
  motorOff := Config.freeMotorOff
  commitWords := Config.freeCommitWords

end Sys2Proof
end

