-- ==== Sys2Proof/Machine/Checksum.lean ====
section
/-! DEFINITION. The checksum unit's function and what of a frame it covers (40_checksum R81 to R85). -/

namespace Sys2Proof

/-- The feedback constant (40_checksum R81). -/
def crcFeedback : Byte := 0x8C#8

/-- `ROUND(c)` (40_checksum R82): one logical shift right, with the feedback where the low bit was set. -/
def crcRound (c : Byte) : Byte :=
  if c.getLsbD 0 then (c >>> 1) ^^^ crcFeedback else c >>> 1

/-- `n` rounds, one after the other. -/
def crcRounds (n : Nat) (c : Byte) : Byte :=
  match n with
  | 0 => c
  | m + 1 => crcRounds m (crcRound c)

/-- `STEP(c, b)`: the byte is XORed in first, then eight rounds (40_checksum R81, R82). -/
def crcStep (c b : Byte) : Byte := crcRounds 8 (c ^^^ b)

/-- The accumulator after the bytes of `S`, in index order, from the value `c`. -/
def crcFrom (c : Byte) (S : List Byte) : Byte := S.foldl crcStep c

/-- `CHECKSUM(S)` (40_checksum R81): the accumulator starts at 0. -/
def checksum (S : List Byte) : Byte := crcFrom 0x00#8 S

/-- `B[a .. stop-1]` (00_scope R6). -/
def slice (B : List Byte) (a stop : Nat) : List Byte := (B.take stop).drop a

/-- `COVERED(B)` (40_checksum R84): from the command code through the last payload byte. -/
def covered (B : List Byte) : List Byte :=
  if B.head? = some magic1 then slice B 2 (B.length - 1) else slice B 0 (B.length - 1)

/-- `FRAME_CHECKSUM(B)` (40_checksum R84). -/
def frameChecksum (B : List Byte) : Byte := checksum (covered B)

/-- A frame is sealed when its last byte is its checksum (40_checksum R84). -/
def isSealed (B : List Byte) : Bool := B.getLast? == some (frameChecksum B)

end Sys2Proof
end

