-- ==== Sys2Proof/Machine/Operands.lean ====
section
/-! DEFINITION. Operand forms: 32-bit fields in frame bytes, the typed views of every payload shape, the Frame operand of
ENCODE, and the bytes of a frame (20_memory R31; 30_encoding R52 to R71; 43_encode R131 to R136). -/

namespace Sys2Proof

/-- `MemRead(buf, addr, n)`: defined only inside the buffer (00_scope R6). -/
def memRead (B : List Byte) (addr n : Nat) : Option (List Byte) :=
  if addr + n ≤ B.length then some ((B.drop addr).take n) else none

/-- One byte of a buffer, where it lies inside. -/
def memByte (B : List Byte) (addr : Nat) : Option Byte := B[addr]?

/-- `MemWrite(buf, addr, n, v)` with `n = len(v)`: what would lie outside the buffer is not written (00_scope R6). -/
def memWrite (B : List Byte) (addr : Nat) (v : List Byte) : List Byte :=
  match v with
  | [] => B
  | b :: rest => memWrite (B.set addr b) (addr + 1) rest

/-- `le32(B, k)`: the byte at the lowest index is the least significant (20_memory R31). -/
def le32 (B : List Byte) (k : Nat) : Word :=
  B.getD (k + 3) 0#8 ++ B.getD (k + 2) 0#8 ++ B.getD (k + 1) 0#8 ++ B.getD k 0#8

/-- `to_le32(x)` of a 32-bit pattern (00_scope R6). -/
def toLe32 (x : Word) : List Byte :=
  [x.extractLsb' 0 8, x.extractLsb' 8 8, x.extractLsb' 16 8, x.extractLsb' 24 8]

/-- A byte field's value fits (43_encode R133 (4)). -/
def isU8 (v : Int) : Bool := decide (0 ≤ v) && decide (v ≤ 255)

/-- An s32 field's value fits (44_exchange R143 (4)). -/
def isS32 (v : Int) : Bool := decide (-2147483648 ≤ v) && decide (v ≤ 2147483647)

/-- A u32 field's value fits (43_encode R133 (4)). -/
def isU32 (v : Int) : Bool := decide (0 ≤ v) && decide (v ≤ 4294967295)

/-- The byte of an integer operand. -/
def byteOf (v : Int) : Byte := BitVec.ofInt 8 v

/-- The 32-bit two's-complement pattern of an integer operand (00_scope R6). -/
def wordOf (v : Int) : Word := BitVec.ofInt 32 v

/-! ## Typed views of the payload bytes (20_memory R33; 30_encoding R61 to R66) -/

/-- The bytes of a `SETTINGS` payload (30_encoding R61, R71). -/
def settingsBytes (d : SettingsData) : List Byte := toLe32 d.data1 ++ toLe32 d.data2 ++ toLe32 d.data3

/-- The `SETTINGS` view (30_encoding R61). -/
def settingsView (p : List Byte) : SettingsData := ⟨le32 p 0, le32 p 4, le32 p 8⟩

/-- The bytes of a `MOTOR_STATUS` payload (30_encoding R63). -/
def motorBytes (d : MotorData) : List Byte :=
  toLe32 d.speed ++ toLe32 d.position ++ toLe32 d.current ++ [d.mode, d.status, d.error]

/-- The `MOTOR_STATUS` view (30_encoding R63). -/
def motorView (p : List Byte) : MotorData :=
  ⟨le32 p 0, le32 p 4, le32 p 8, p.getD 12 0#8, p.getD 13 0#8, p.getD 14 0#8⟩

/-- The bytes of an `OTHER_STATUS` payload (30_encoding R64). -/
def otherBytes (d : OtherData) : List Byte :=
  toLe32 d.vin ++ toLe32 d.temperature ++ toLe32 d.encoderCounter ++ [d.rgbMode, d.rgbBrightness, d.b2]

/-- The `OTHER_STATUS` view (30_encoding R64). -/
def otherView (p : List Byte) : OtherData :=
  ⟨le32 p 0, le32 p 4, le32 p 8, p.getD 12 0#8, p.getD 13 0#8, p.getD 14 0#8⟩

/-- The bytes of a `PID_RB_SPEED` or `PID_RB_POS` payload (30_encoding R65). -/
def pidBytes (d : PidData) : List Byte :=
  toLe32 d.kp ++ toLe32 d.ki ++ toLe32 d.kd ++ [d.b0, d.b1, d.b2]

/-- The `PID_RB_SPEED` and `PID_RB_POS` view (30_encoding R65). -/
def pidView (p : List Byte) : PidData :=
  ⟨le32 p 0, le32 p 4, le32 p 8, p.getD 12 0#8, p.getD 13 0#8, p.getD 14 0#8⟩

/-- The `READ_TRIGGER` view (30_encoding R62). -/
def triggerView (p : List Byte) : Byte := p.getD 0 0#8

/-! ## Frames and their bytes -/

/-- A response is a frame whose first byte is 0xAA (10_state R17; 30_encoding R57). -/
def Frame.isResponse (F : Frame) : Bool := F.firstByte == magic1

/-- The logical command: `actual_command` of a response, else the first byte (10_state R17). -/
def Frame.cmd (F : Frame) : Option Byte := if F.isResponse then F.actualCommand else some F.firstByte

/-- `WELL_FORMED(F)` of a Frame value (43_encode R133 (1) to (3); (4) holds by type). -/
def Frame.wellFormed (F : Frame) : Bool :=
  (F.cmd.map shapeOf == some F.shape)
    && (F.payload.length == payloadSize F.shape)
    && (F.magic2.isSome == F.isResponse)
    && (F.actualCommand.isSome == F.isResponse)

/-- `ENCODE(F)`: the fields in wire order, the checksum verbatim (43_encode R131). -/
def frameBytes (F : Frame) : List Byte :=
  F.firstByte ::
    ((if F.isResponse then F.magic2.toList ++ F.actualCommand.toList else [])
      ++ F.deviceId :: (F.payload ++ [F.checksum]))

/-- `SEAL(F)`: the frame's bytes with the last one replaced by the frame checksum (43_encode R136). -/
def sealBytes (F : Frame) : List Byte :=
  (frameBytes F).dropLast ++ [frameChecksum (frameBytes F)]

/-- The frame that carries a command behind the given header (30_encoding R52, R53). -/
def frameWith (cmd : Byte) (h : Header) (payload : List Byte) (k : Byte) : Frame :=
  match h.framing with
  | .request => ⟨cmd, none, none, h.deviceId, shapeOf cmd, payload, k⟩
  | .response m => ⟨magic1, some m, some cmd, h.deviceId, shapeOf cmd, payload, k⟩

/-- A request frame as the dispatcher builds it, its checksum still 0 (44_exchange R144, R154, R160). -/
def requestFrame (cmd target : Byte) (payload : List Byte) : Frame :=
  frameWith cmd ⟨.request, target⟩ payload 0x00#8

/-! ## The Frame operand of ENCODE -/

/-- The command code of the operand, which is missing in a response that lacks `actual_command`. -/
def FrameArg.command (a : FrameArg) : Option Int :=
  if a.firstByte = 0xAA then a.actualCommand else some a.firstByte

/-- The payload is of the shape's form and every field fits (43_encode R133 (1), (2), (4)). -/
def PayloadArg.fits (p : PayloadArg) (s : Shape) : Bool :=
  match p with
  | .raw bytes => bytes.length == payloadSize s
  | .settings a b c => s == .settings && isS32 a && isS32 b && isS32 c
  | .trigger v => s == .readTrigger && isU8 v
  | .motorStatus v p c m t e =>
    s == .motorStatus && isS32 v && isS32 p && isS32 c && isU8 m && isU8 t && isU8 e
  | .otherStatus v t e m b x =>
    s == .otherStatus && isU32 v && isS32 t && isS32 e && isU8 m && isU8 b && isU8 x
  | .pid kp ki kd b0 b1 b2 =>
    (s == .pidRbSpeed || s == .pidRbPos)
      && isU32 kp && isU32 ki && isU32 kd && isU8 b0 && isU8 b1 && isU8 b2

/-- The payload bytes of the operand (43_encode R131; 30_encoding R71). -/
def PayloadArg.toBytes (p : PayloadArg) : List Byte :=
  match p with
  | .raw bytes => bytes
  | .settings a b c => settingsBytes ⟨wordOf a, wordOf b, wordOf c⟩
  | .trigger v => [byteOf v]
  | .motorStatus v p c m t e => motorBytes ⟨wordOf v, wordOf p, wordOf c, byteOf m, byteOf t, byteOf e⟩
  | .otherStatus v t e m b x => otherBytes ⟨wordOf v, wordOf t, wordOf e, byteOf m, byteOf b, byteOf x⟩
  | .pid kp ki kd b0 b1 b2 => pidBytes ⟨wordOf kp, wordOf ki, wordOf kd, byteOf b0, byteOf b1, byteOf b2⟩

/-- The markers and the command are present exactly in a response, and fit (43_encode R133 (3), (4)). -/
def FrameArg.headerOk (a : FrameArg) : Bool :=
  match a.magic2, a.actualCommand with
  | some m, some c => decide (a.firstByte = 0xAA) && isU8 m && isU8 c
  | none, none => !decide (a.firstByte = 0xAA) && isU8 a.firstByte
  | _, _ => false

/-- `WELL_FORMED(F)` of the operand as given (43_encode R133). -/
def FrameArg.wellFormed (a : FrameArg) : Bool :=
  a.headerOk
    && isU8 a.deviceId && isU8 a.checksum
    && (a.command.map (fun c => shapeOf (byteOf c)) == some a.shape)
    && a.payload.fits a.shape

/-- The Frame value of an operand. -/
def FrameArg.toFrame (a : FrameArg) : Frame where
  firstByte := byteOf a.firstByte
  magic2 := a.magic2.map byteOf
  actualCommand := a.actualCommand.map byteOf
  deviceId := byteOf a.deviceId
  shape := a.shape
  payload := a.payload.toBytes
  checksum := byteOf a.checksum

/-- A Frame value given as an operand, its payload as bytes. -/
def Frame.toArg (F : Frame) : FrameArg where
  firstByte := F.firstByte.toNat
  magic2 := F.magic2.map (fun b => (b.toNat : Int))
  actualCommand := F.actualCommand.map (fun b => (b.toNat : Int))
  deviceId := F.deviceId.toNat
  shape := F.shape
  payload := .raw F.payload
  checksum := F.checksum.toNat

/-! ## How many bytes a frame takes -/

/-- `NEED(B)`, which has no value where the first bytes do not say (42_decode R102). -/
def need (B : List Byte) : Option Nat :=
  match B with
  | [] => none
  | b0 :: rest =>
    if b0 = magic1 then
      match rest with
      | _ :: cmd :: _ => some (headerLen true + payloadSize (shapeOf cmd) + 1)
      | _ => none
    else some (headerLen false + payloadSize (shapeOf b0) + 1)

/-- The logical command that the first bytes announce (42_decode R105). -/
def logicalCommand (B : List Byte) : Option Byte :=
  match B with
  | [] => none
  | b0 :: rest => if b0 = magic1 then rest[1]? else some b0

end Sys2Proof
end

