-- ==== Sys2Proof/Machine/State.lean ====
section
/-! DEFINITION. The state of the block (10_state), the fault kinds (60_exceptions R201), the reasons a step of the model can stop,
and the state after reset. -/

namespace Sys2Proof.Machine

/-- The kinds of the 3-bit `fault` output (60_exceptions R201); code 7 is reserved and never produced. They are outcomes of an
operation, held in State; none of them stops the machine (R200). -/
inductive FaultKind where
  | none
  | transportError
  | frameTooShort
  | unknownCommand
  | refused
  | responseUnmarked
  | responseShape
deriving DecidableEq, Repr

/-- The sequencer position inside an exchange operation (10_state R21). -/
inductive Phase where
  | idle | build | write | settle | read | decode | check | done
deriving DecidableEq, Repr

/-- The Frame register `F` (10_state R17). A field without a value has not been written by the pass that the register belongs to, or
is absent from a request frame. -/
structure FrameReg where
  firstByte : Option Byte
  magic2 : Option Byte
  actualCommand : Option Byte
  deviceId : Option Byte
  shape : Option Shape
  payload : Option (List Byte)
  checksum : Option Byte
deriving DecidableEq, Repr

/-- The result registers of the operations (10_state R18; 44_exchange R154, R160; 45_scaling_surface R181 to R183). -/
inductive Result where
  /-- CHECKSUM's byte. -/
  | byte (v : Byte)
  /-- FRAME_LENGTH's integer. -/
  | length (n : Nat)
  /-- DECODE's Frame. -/
  | frame (F : Frame)
  /-- ENCODE's byte string. -/
  | bytes (b : List Byte)
  /-- REQUEST_STATUS 0x40, descaled by 100 (45_scaling_surface R181). -/
  | motorStatus (speed position current : Rat) (mode status error : Byte)
  /-- REQUEST_STATUS 0x41, unscaled (45_scaling_surface R183). -/
  | otherStatus (vin temperature encoderCounter : Int) (rgbMode rgbBrightness b2 : Byte)
  /-- REQUEST_STATUS 0x42 and 0x43, gains descaled by 100000 (45_scaling_surface R182). -/
  | pid (kp ki kd : Rat) (b0 b1 b2 : Byte)
  /-- I2C_EXCHANGE's `resp_raw`. -/
  | raw (b : List Byte)
deriving DecidableEq, Repr

/-- The status outputs and the result, each with a value from the end of the operation that produced it until the next one starts
(10_state R19). -/
structure Outputs where
  ok : Option Bool
  valid : Option Bool
  isResponse : Option Bool
  magicOk : Option Bool
  known : Option Bool
  consumed : Option Nat
  result : Option Result
deriving DecidableEq, Repr

/-- The transport as the block meets it (20_memory R40 to R42): its readiness, the two byte streams of the wire, and the
model's own fields: the oracle's scripted answers and the counters the unscripted ones are applied to (log 11). -/
structure Transport where
  isOpen : Bool
  incoming : List Byte
  outgoing : List Byte
  writeAnswers : List WriteAnswer
  readAnswers : List ReadAnswer
  writeCalls : Nat
  readCalls : Nat
deriving DecidableEq, Repr

/-- Everything the spec gives the block. `tx_len` and `rx_len` are the lengths of `tx` and `rx` (log 20). -/
structure State where
  /-- The parameters of 00_scope R5, never written (log 17). -/
  cfg : Config
  /-- The model's own: what the host issues next (log 1). -/
  inputs : List Input
  /-- `TARGET_ID` (10_state R12). -/
  targetId : Option Byte
  /-- The transport (10_state R13, R22; 20_memory R30). -/
  wire : Transport
  /-- The checksum accumulator (10_state R14). -/
  c : Byte
  /-- The byte cursor (10_state R16). -/
  pos : Nat
  /-- The Frame register `F` (10_state R17). -/
  frame : FrameReg
  /-- The outgoing buffer (10_state R15). -/
  tx : List Byte
  /-- The incoming buffer (10_state R15). -/
  rx : List Byte
  /-- The status outputs and results (10_state R18, R19). -/
  out : Outputs
  /-- The fault output (10_state R19; 60_exceptions R201). -/
  fault : FaultKind
  /-- The sequencer position (10_state R21). -/
  phase : Phase
deriving DecidableEq, Repr

/-- No step of the model faults: every fault the spec describes is an outcome held in `State.fault`, after which the block takes
the next operation (60_exceptions R200, R211), so this type has no constructor (log 27). Safe. -/
inductive Fault where
deriving DecidableEq, Repr

/-- Why a step has no meaning. -/
inductive Refusal where
  /-- Raised by `exec`'s arms for an instruction that has no meaning yet; no arm is left that does so. Safe. -/
  | notModelled (mnemonic : String)
deriving DecidableEq, Repr

/-- A Frame register that holds no value (10_state R24). -/
def FrameReg.empty : FrameReg where
  firstByte := Option.none
  magic2 := Option.none
  actualCommand := Option.none
  deviceId := Option.none
  shape := Option.none
  payload := Option.none
  checksum := Option.none

/-- Status outputs and results that hold no value (10_state R24). -/
def Outputs.empty : Outputs where
  ok := Option.none
  valid := Option.none
  isResponse := Option.none
  magicOk := Option.none
  known := Option.none
  consumed := Option.none
  result := Option.none

/-- The transport before its host has opened it: nothing sent, nothing received, no answer scripted (log 11, log 15). -/
def Transport.atReset : Transport where
  isOpen := false
  incoming := []
  outgoing := []
  writeAnswers := []
  readAnswers := []
  writeCalls := 0
  readCalls := 0

/-- The block before the host has issued any operation (10_state R24; 70_reset_and_hazards R230). What R24 leaves unspecified has the value
log 15 names. -/
def State.reset : State where
  cfg := defaultConfig
  inputs := []
  targetId := Option.none
  wire := Transport.atReset
  c := 0x00#8
  pos := 0
  frame := FrameReg.empty
  tx := []
  rx := []
  out := Outputs.empty
  fault := .none
  phase := .idle

end Sys2Proof.Machine
end

