-- ==== Sys2Proof/Machine/Flags.lean ====
section
/-! DEFINITION. The status outputs as functions of what they are computed from (10_state R19; 40_checksum R85; 44_exchange
R148), and the numeric codes of the fault kinds. -/

namespace Sys2Proof.Machine

/-- The code of a fault kind (60_exceptions R201). -/
def faultCode (k : FaultKind) : BitVec 3 :=
  match k with
  | .none => 0#3
  | .transportError => 1#3
  | .frameTooShort => 2#3
  | .unknownCommand => 3#3
  | .refused => 4#3
  | .responseUnmarked => 5#3
  | .responseShape => 6#3

/-- `is_response` (10_state R19). -/
def flagIsResponse (F : FrameReg) : Bool := F.firstByte == some magic1

/-- `magic_ok`: 0 for a request (10_state R19; 42_decode R106). -/
def flagMagicOk (F : FrameReg) : Bool := flagIsResponse F && F.magic2 == some magicTwo

/-- The logical command held in the Frame register (10_state R17). -/
def regCommand (F : FrameReg) : Option Byte :=
  if flagIsResponse F then F.actualCommand else F.firstByte

/-- `known`: the logical command lies in one of the eight ranges (10_state R19; 42_decode R109). -/
def flagKnown (F : FrameReg) : Bool :=
  match regCommand F with
  | some c => family c != .other
  | none => false

/-- The payload bytes the Frame register holds. -/
def regPayload (F : FrameReg) : List Byte := F.payload.getD []

/-- The Frame value in the register, where it holds all of one (10_state R17). -/
def regFrame (F : FrameReg) : Option Frame :=
  match F.firstByte, F.deviceId, F.shape, F.payload, F.checksum with
  | some b, some d, some s, some p, some k => some ⟨b, F.magic2, F.actualCommand, d, s, p, k⟩
  | _, _, _, _, _ => none

/-- A Frame value as the register holds it. -/
def regOf (F : Frame) : FrameReg where
  firstByte := some F.firstByte
  magic2 := F.magic2
  actualCommand := F.actualCommand
  deviceId := some F.deviceId
  shape := some F.shape
  payload := some F.payload
  checksum := some F.checksum

/-- The bytes a receive path sums: `RX[2 .. n-2]`, without looking at `RX[0]` (40_checksum R85). -/
def verifyRange (rx : List Byte) : List Byte := slice rx 2 (rx.length - 1)

/-- `CHECK_OK(RX, F)` (40_checksum R85). -/
def flagCheckOk (rx : List Byte) (F : FrameReg) : Bool := F.checksum == some (checksum (verifyRange rx))

/-- The three echoed values equal the expected ones, compared as s32 (44_exchange R148). -/
def flagValuesMatch (F : FrameReg) (data1 data2 data3 : Int) : Bool :=
  let d := settingsView (regPayload F)
  decide (d.data1.toInt = data1) && decide (d.data2.toInt = data2) && decide (d.data3.toInt = data3)

/-! ## What the host may read -/

/-- The status outputs and results a host may read: none after an operation that did not complete (10_state R20; 60_exceptions
R200). -/
def State.readableOut (s : State) : Outputs := if s.fault = .none then s.out else Outputs.empty

/-- The Frame a host may read: the one decoded by the operation that ended last, where that operation completed and decodes one
(10_state R17, R20; 44_exchange R149). -/
def State.readableFrame (s : State) : Option Frame :=
  if s.fault = .none ∧ (s.out.isResponse.isSome ∨ s.out.ok.isSome ∨ s.out.valid.isSome) then regFrame s.frame else none

/-- `tx_len` (10_state R15; log 20). -/
def State.txLen (s : State) : Nat := s.tx.length

/-- `rx_len` (10_state R15; log 20). -/
def State.rxLen (s : State) : Nat := s.rx.length

end Sys2Proof.Machine
end

