-- ==== Sys2Proof/Machine/Scaling.lean ====
section
/-! DEFINITION. Unit scaling, clamping and packing, over exact rationals (45_scaling_surface R170 to R183). -/

namespace Sys2Proof.Machine

/-- `trunc(q)`: toward zero (45_scaling_surface R179). -/
def truncRat (q : Rat) : Int := q.num.tdiv q.den

/-- `clamp(x, lo, hi)` of a rational (45_scaling_surface R174). -/
def clampRat (x lo hi : Rat) : Rat := if x < lo then lo else if hi < x then hi else x

/-- `clamp(x, lo, hi)` of an integer (45_scaling_surface R174). -/
def clampInt (x lo hi : Int) : Int := if x < lo then lo else if hi < x then hi else x

/-- `WIRE_100(x, lo, hi)`: clamp, scale, truncate (45_scaling_surface R172, R175). -/
def wire100 (x lo hi : Rat) : Int := truncRat (clampRat x lo hi * 100)

/-- `WIRE_SPEED(x)` (45_scaling_surface R172). -/
def wireSpeed (x : Rat) : Int := wire100 x (-21000000) 21000000

/-- `WIRE_POSITION(x)` (45_scaling_surface R172). -/
def wirePosition (x : Rat) : Int := wire100 x (-21000000) 21000000

/-- `WIRE_CURRENT(x)` (45_scaling_surface R172). -/
def wireCurrent (x : Rat) : Int := wire100 x (-1200) 1200

/-- `WIRE_GAIN(g)`, unclamped (45_scaling_surface R173). -/
def wireGain (g : Rat) : Int := truncRat (g * 100000)

/-- `PACK_RGB(r, g, b, mode)` (45_scaling_surface R176). -/
def packRgb (r g b mode : Int) : Int :=
  clampInt r 0 255 + clampInt g 0 255 * 256 + clampInt b 0 255 * 65536 + clampInt mode 0 1 * 16777216

/-- A finite argument; a non-finite one has no meaning (45_scaling_surface R171). -/
def physRat (x : Phys) : Option Rat :=
  match x with
  | .finite q => some q
  | .nonFinite => none

/-- An integer argument; a non-integer one has no meaning (45_scaling_surface R174). -/
def physInt (x : Phys) : Option Int :=
  match x with
  | .finite q => if q.den = 1 then some q.num else none
  | .nonFinite => none

/-- An x100 word as a physical value (45_scaling_surface R181). -/
def descale100 (w : Word) : Rat := ((w.toInt : Int) : Rat) / 100

/-- A gain word, u32, as a physical value (45_scaling_surface R182). -/
def descaleGain (w : Word) : Rat := ((w.toNat : Nat) : Rat) / 100000

/-- `DESCALE(F)` of a readback (45_scaling_surface R181 to R183); the other shapes are no readback. -/
def descale (s : Shape) (p : List Byte) : Option Result :=
  match s with
  | .motorStatus =>
    let d := motorView p
    some (.motorStatus (descale100 d.speed) (descale100 d.position) (descale100 d.current) d.mode d.status d.error)
  | .otherStatus =>
    let d := otherView p
    some (.otherStatus d.vin.toNat d.temperature.toInt d.encoderCounter.toInt d.rgbMode d.rgbBrightness d.b2)
  | .pidRbSpeed =>
    let d := pidView p
    some (.pid (descaleGain d.kp) (descaleGain d.ki) (descaleGain d.kd) d.b0 d.b1 d.b2)
  | .pidRbPos =>
    let d := pidView p
    some (.pid (descaleGain d.kp) (descaleGain d.ki) (descaleGain d.kd) d.b0 d.b1 d.b2)
  | .settings | .readTrigger | .i2cRdregReq | .i2cWrregReq | .i2cRdrawReq | .i2cWrrawReq
  | .i2cRdregResp | .i2cWrregResp | .i2cRdrawResp | .i2cWrrawResp => none

end Sys2Proof.Machine
end

