-- ==== Sys2Proof/Machine/Ops.lean ====
section
/-! DEFINITION. The named operations every meaning is made of: how an operation starts, is refused, faults and ends
(60_exceptions R200, R208, R209), the transport's two primitives (20_memory R40), the decode pass (42_decode R101), and the phases
of an exchange (10_state R21; 44_exchange R142). -/

namespace Sys2Proof.Machine

/-! ## Start, refusal, fault, end -/

/-- A refused operation: "no state other than `fault` changed" (60_exceptions R200). -/
def State.refuse (s : State) : State := { s with fault := .refused }

/-- An operation starts: the status outputs of the one before lose their value (10_state R19; log 8) and no fault has occurred. -/
def State.start (s : State) : State := { s with out := Outputs.empty, fault := .none }

/-- Delivery of a fault: `phase <- DONE`, `fault <- kind`, and "Nothing else is written on that account" (60_exceptions R209). -/
def State.deliver (k : FaultKind) (s : State) : State := { s with phase := .done, fault := k }

/-- An operation has ended: the sequencer is `IDLE` "whenever no operation is running" (10_state R21). This is the whole return from a
fault as well: "Nothing is restored" (60_exceptions R211). A completed operation comes here from its own last phase, `SETTLE` or
`CHECK` (44_exchange R142), a faulted one from `DONE` (60_exceptions R209). R21 lists `DONE` without saying whether a completed
operation passes through it; that it does not is the model's choice (DESIGN CHOICE, log 30). -/
def State.finish (s : State) : State := { s with phase := .idle }

/-- The next phase, unless a fault has ended the operation (60_exceptions R208, R209). -/
def State.andThen (s : State) (f : State → State) : State := if s.fault = .none then f s else s

/-- One host operation: refused while another runs (10_state R21) or outside its conditions (60_exceptions R207), both tested before
anything else happens (R208 (1)); otherwise its body from start to end. -/
def runOp (admitted : Bool) (body : State → State) (s : State) : State :=
  if s.phase = .idle ∧ admitted = true then (body s.start).finish else s.refuse

/-! ## The transport's primitives -/

/-- The oracle's next answer to a `write`: the next scripted one, or a free one (20_memory R41; log 11). -/
def Transport.nextWrite (w : Transport) : WriteAnswer :=
  match w.writeAnswers with
  | a :: _ => a
  | [] => Config.freeWrite w.writeCalls

/-- The oracle's next answer to a `read` (20_memory R41; log 11). -/
def Transport.nextRead (w : Transport) : ReadAnswer :=
  match w.readAnswers with
  | a :: _ => a
  | [] => Config.freeRead w.readCalls

/-- What the transport does with the next `write`. A closed port raises (44_exchange R159). How much of the frame reached the
bus is the oracle's as on every raise (60_exceptions R203; 93 U17), a whole frame where the oracle's answer is to accept (log 14). -/
def Transport.writeAnswer (w : Transport) : WriteAnswer :=
  if w.isOpen then w.nextWrite
  else
    match w.nextWrite with
    | .accept => .raise maxFrame
    | .raise sent => .raise sent

/-- What the transport does with the next `read`. A closed port raises, and how many bytes it took is the oracle's
(44_exchange R159; 60_exceptions R203; log 14). -/
def Transport.readAnswer (w : Transport) : ReadAnswer :=
  if w.isOpen then w.nextRead
  else
    match w.nextRead with
    | .deliver arrivals count => .raise arrivals count
    | .raise arrivals taken => .raise arrivals taken

/-- The transport after it has been asked for a write answer. -/
def Transport.askedWrite (w : Transport) : Transport :=
  { w with writeAnswers := w.writeAnswers.tail, writeCalls := w.writeCalls + 1 }

/-- The transport after it has been asked for a read answer. -/
def Transport.askedRead (w : Transport) : Transport :=
  { w with readAnswers := w.readAnswers.tail, readCalls := w.readCalls + 1 }

/-- `transport.write(S)`: whether it took all of `S`, and the transport after it. A raise leaves a prefix on the
bus (20_memory R40; 60_exceptions R203). -/
def Transport.write (w : Transport) (S : List Byte) : Bool × Transport :=
  match w.writeAnswer with
  | .accept => (true, { w.askedWrite with outgoing := w.outgoing ++ S })
  | .raise sent => (false, { w.askedWrite with outgoing := w.outgoing ++ S.take sent })

/-- `transport.read(n)`: the oldest unread bytes, at most `n` of them, or nothing where it raises; the bytes it took are gone
from the stream either way (20_memory R40 to R42; 60_exceptions R203). -/
def Transport.read (w : Transport) (n : Nat) : Option (List Byte) × Transport :=
  match w.readAnswer with
  | .deliver arrivals count =>
    (some ((w.incoming ++ arrivals).take (min count n)),
      { w.askedRead with incoming := (w.incoming ++ arrivals).drop (min count n) })
  | .raise arrivals taken =>
    (none, { w.askedRead with incoming := (w.incoming ++ arrivals).drop taken })

/-! ## The decode pass -/

/-- What a decode pass leaves: the Frame register as far as it was filled, the cursor, and the fault, `none` when it ran to the
end. -/
structure Pass where
  frame : FrameReg
  pos : Nat
  fault : FaultKind
deriving DecidableEq, Repr

/-- The pass from the device id on: device id, the strict test, shape, payload, checksum (42_decode R101, R113). -/
def passBody (strict : Bool) (B : List Byte) (F : FrameReg) (pos : Nat) (cmd : Byte) : Pass :=
  match memByte B pos with
  | none => ⟨F, pos, .frameTooShort⟩
  | some d =>
    if strict && family cmd == .other then ⟨{ F with deviceId := some d }, pos + 1, .unknownCommand⟩
    else
      match memRead B (pos + 1) (payloadSize (shapeOf cmd)) with
      | none => ⟨{ F with deviceId := some d, shape := some (shapeOf cmd) }, pos + 1, .frameTooShort⟩
      | some p =>
        match memByte B (pos + 1 + payloadSize (shapeOf cmd)) with
        | none =>
          ⟨{ F with deviceId := some d, shape := some (shapeOf cmd), payload := some p },
            pos + 1 + payloadSize (shapeOf cmd), .frameTooShort⟩
        | some k =>
          ⟨{ F with deviceId := some d, shape := some (shapeOf cmd), payload := some p, checksum := some k },
            pos + 2 + payloadSize (shapeOf cmd), .none⟩

/-- The decode pass over `B`: one linear pass, each field taken only where the bytes for it are there (42_decode R101, R103).
The register starts with no value (log 9). -/
def decodePass (strict : Bool) (B : List Byte) : Pass :=
  match memByte B 0 with
  | none => ⟨FrameReg.empty, 0, .frameTooShort⟩
  | some b0 =>
    if b0 = magic1 then
      match memByte B 1 with
      | none => ⟨{ FrameReg.empty with firstByte := some b0 }, 1, .frameTooShort⟩
      | some m =>
        match memByte B 2 with
        | none => ⟨{ FrameReg.empty with firstByte := some b0, magic2 := some m }, 2, .frameTooShort⟩
        | some cmd =>
          passBody strict B { FrameReg.empty with firstByte := some b0, magic2 := some m, actualCommand := some cmd } 3 cmd
    else passBody strict B { FrameReg.empty with firstByte := some b0 } 1 b0

/-- The state after a decode pass over `B`: `F`, `pos`, and the fault if there is one (42_decode R101). -/
def State.runPass (B : List Byte) (s : State) : State :=
  let p := decodePass s.cfg.strictUnknown B
  let s' := { s with frame := p.frame, pos := p.pos }
  if p.fault = .none then s' else s'.deliver p.fault

/-- The status outputs and the result of a DECODE that ran to the end (42_decode R101; 10_state R19). -/
def State.reportPass (s : State) : State :=
  { s with out :=
      { s.out with
        isResponse := some (flagIsResponse s.frame)
        magicOk := some (flagMagicOk s.frame)
        known := some (flagKnown s.frame)
        consumed := some s.pos
        result := (regFrame s.frame).map Result.frame } }

/-- DECODE of a byte string as an operation's body (42_decode R101). -/
def decodeBody (B : List Byte) (s : State) : State := (s.runPass B).andThen State.reportPass

/-- A wire frame put before the codec: one DECODE over the frame's bytes (30_encoding R50; 42_decode R101; log 3). -/
def runFrame (F : Frame) (s : State) : State := runOp true (decodeBody (frameBytes F)) s

/-! ## The phases of an exchange -/

/-- `BUILD`: the frame into `F`, its sealed bytes into `TX` (44_exchange R144, R154, R160; 43_encode R136). ENCODE leaves the cursor at the
end and SEAL the accumulator at the checksum. -/
def buildPhase (F : Frame) (s : State) : State :=
  { s with
    phase := .build
    frame := regOf F
    tx := sealBytes F
    pos := (frameBytes F).length
    c := frameChecksum (frameBytes F) }

/-- `WRITE`: the whole buffer in one `transport.write` (20_memory R35, R43). -/
def writePhase (s : State) : State :=
  let r := s.wire.write s.tx
  let s' := { s with phase := .write, wire := r.2 }
  if r.1 then s' else s'.deliver .transportError

/-- `SETTLE`: the delay changes no state (44_exchange R146; 60_exceptions R216). -/
def settlePhase (_tSettle : Nat) (s : State) : State := { s with phase := .settle }

/-- `READ`: one `transport.read` of `len` bytes into `RX` (20_memory R35, R43). -/
def readPhase (len : Nat) (s : State) : State :=
  let r := s.wire.read len
  let s' := { s with phase := .read, wire := r.2 }
  match r.1 with
  | some bytes => { s' with rx := bytes }
  | none => s'.deliver .transportError

/-- `DECODE`: the decode pass over `RX`; its status outputs belong to the operation DECODE alone (44_exchange R148; log 10). -/
def decodePhase (s : State) : State := State.runPass s.rx { s with phase := .decode }

/-- The send half: `BUILD, WRITE, SETTLE` (44_exchange R142, R163). -/
def sendHalf (F : Frame) (s : State) : State :=
  ((buildPhase F s).andThen writePhase).andThen (settlePhase s.cfg.tSettle)

/-- `CHECK` up to the checksum: the marker, the shape and the fill, in this order (44_exchange R148, R151, R162). `expected` says
which decoded shape is the operation's own. -/
def checkMarks (expected : Shape) (s : State) : State :=
  let s' := { s with phase := .check }
  if s.rx.head? ≠ some magic1 then s'.deliver .responseUnmarked
  else if s.frame.shape ≠ some expected ∨ s.pos ≠ s.rx.length then s'.deliver .responseShape
  else s'

/-- The checksum is recomputed over the received bytes (40_checksum R85). -/
def sumPhase (s : State) : State := { s with c := checksum (verifyRange s.rx) }

/-- The receive half up to the verdict: `READ, DECODE, CHECK` (44_exchange R142). -/
def receiveHalf (len : Nat) (expected : Shape) (s : State) : State :=
  (((readPhase len s).andThen decodePhase).andThen (checkMarks expected)).andThen sumPhase

/-- The verdict of VERIFY_SETTING_RESPONSE: a checksum mismatch and a value mismatch are both `ok = 0` (44_exchange R148; 60_exceptions
R205, R206). -/
def verdictOk (data1 data2 data3 : Int) (s : State) : State :=
  { s with out :=
      { s.out with ok := some (flagCheckOk s.rx s.frame && flagValuesMatch s.frame data1 data2 data3) } }

/-- The verdict of the two other receive paths: `valid`, and the result where it is 1 (44_exchange R154, R155, R160). -/
def verdictValid (result : FrameReg → Option Result) (s : State) : State :=
  { s with out :=
      { s.out with
        valid := some (flagCheckOk s.rx s.frame)
        result := if flagCheckOk s.rx s.frame then result s.frame else none } }

end Sys2Proof.Machine
end

