-- ==== Sys2Proof/Machine/Codec.lean ====
section
/-! DEFINITION. The meanings of the codec's host operations CHECKSUM, FRAME_LENGTH, DECODE, ENCODE and of SET_TARGET. -/

namespace Sys2Proof.Machine

/-- The result register is written. -/
def State.setResult (r : Result) (s : State) : State := { s with out := { s.out with result := some r } }

/-- CHECKSUM as a body: `c` and the result byte (40_checksum R81). -/
def checksumBody (S : List Byte) (s : State) : State := State.setResult (.byte (checksum S)) { s with c := checksum S }

/-- CHECKSUM (40_checksum R81). Total on every byte string. -/
def execChecksum (S : List Byte) (s : State) : Host.Outcome State Fault Refusal :=
  .next (runOp true (checksumBody S) s)

/-- FRAME_LENGTH (41_frame_length R91); a code outside 0..255 is refused (60_exceptions R207). -/
def execFrameLength (command : Int) (s : State) : Host.Outcome State Fault Refusal :=
  .next (runOp (isU8 command) (State.setResult (.length (frameLength (byteOf command)))) s)

/-- DECODE (42_decode R101). -/
def execDecode (B : List Byte) (s : State) : Host.Outcome State Fault Refusal :=
  .next (runOp true (decodeBody B) s)

/-- ENCODE as a body: the cursor at the end, and the result string (43_encode R131). -/
def encodeBody (F : Frame) (s : State) : State :=
  State.setResult (.bytes (frameBytes F)) { s with pos := (frameBytes F).length }

/-- ENCODE (43_encode R131); an ill-formed Frame is refused (R133). -/
def execEncode (F : FrameArg) (s : State) : Host.Outcome State Fault Refusal :=
  .next (runOp F.wellFormed (encodeBody F.toFrame) s)

/-- SET_TARGET as a body (44_exchange R140). -/
def setTargetBody (id : Byte) (s : State) : State := { s with targetId := some id }

/-- SET_TARGET (44_exchange R140); an id outside 0..255 is refused. -/
def execSetTarget (id : Int) (s : State) : Host.Outcome State Fault Refusal :=
  .next (runOp (isU8 id) (setTargetBody (byteOf id)) s)

end Sys2Proof.Machine
end

