-- ==== Sys2Proof/Machine/Exchange.lean ====
section
/-! DEFINITION. The dispatcher: the meanings of SEND_SETTING, VERIFY_SETTING_RESPONSE, REQUEST_STATUS, I2C_EXCHANGE (44_exchange). -/

namespace Sys2Proof.Machine

/-- The conditions (2) to (4) of SEND_SETTING (44_exchange R143); condition (1) is `TARGET_ID`'s. -/
def sendAdmits (command data1 data2 data3 : Int) : Bool :=
  isU8 command && decide (command ≠ 0xAA)
    && (shapeOf (byteOf command) == .settings) && decide (frameLength (byteOf command) = 15)
    && isS32 data1 && isS32 data2 && isS32 data3

/-- SEND_SETTING on a state: refused without a target id (70_reset_and_hazards R231) or outside its conditions; else build, seal, write,
settle (44_exchange R143, R144). -/
def sendSettingState (command data1 data2 data3 : Int) (s : State) : State :=
  match s.targetId with
  | none => s.refuse
  | some target =>
    runOp (sendAdmits command data1 data2 data3)
      (sendHalf (requestFrame (byteOf command) target
        (settingsBytes ⟨wordOf data1, wordOf data2, wordOf data3⟩))) s

/-- SEND_SETTING (44_exchange R144). -/
def execSendSetting (command data1 data2 data3 : Int) (s : State) : Host.Outcome State Fault Refusal :=
  .next (sendSettingState command data1 data2 data3 s)

/-- The command of VERIFY_SETTING_RESPONSE is a u8; it refuses nothing else (44_exchange R147; 60_exceptions R207; log 5). An
expected value outside s32 equals no echoed one and gives `ok = 0` (70_reset_and_hazards R248; 45_scaling_surface R175). -/
def verifyAdmits (command : Int) : Bool := isU8 command

/-- VERIFY_SETTING_RESPONSE on a state: read as many bytes as `command`'s frame has, decode, check marker, shape and fill, sum,
compare (44_exchange R148). -/
def verifyState (command data1 data2 data3 : Int) (s : State) : State :=
  runOp (verifyAdmits command)
    (fun s0 => (receiveHalf (frameLength (byteOf command)) .settings s0).andThen (verdictOk data1 data2 data3)) s

/-- VERIFY_SETTING_RESPONSE (44_exchange R148). -/
def execVerifySettingResponse (command data1 data2 data3 : Int) (s : State) :
    Host.Outcome State Fault Refusal :=
  .next (verifyState command data1 data2 data3 s)

/-- A request and its response in one operation: `BUILD, WRITE, SETTLE, READ, DECODE, CHECK` (44_exchange R142). Refused
without a target id, without a response code, or where the operation does not admit its operands. -/
def requestResponse (admitted : Bool) (cmd : Byte) (payload : List Byte) (result : FrameReg → Option Result)
    (s : State) : State :=
  match s.targetId, respCode cmd with
  | some target, some rc =>
    runOp admitted
      (fun s0 =>
        ((sendHalf (requestFrame cmd target payload) s0).andThen
          (receiveHalf (frameLength rc) (shapeOf rc))).andThen (verdictValid result)) s
  | _, _ => s.refuse

/-- The operand condition of REQUEST_STATUS (44_exchange R152). -/
def statusAdmits (command : Int) : Bool := isU8 command && family (byteOf command) == .reqRd

/-- The result of a status read: the descaled record of the readback decoded (44_exchange R154). -/
def statusResult (F : FrameReg) : Option Result := F.shape.bind (fun sh => descale sh (regPayload F))

/-- REQUEST_STATUS on a state (44_exchange R152 to R154). -/
def requestStatusState (command : Int) (s : State) : State :=
  requestResponse (statusAdmits command) (byteOf command) [s.cfg.readTrigger] statusResult s

/-- REQUEST_STATUS (44_exchange R154). -/
def execRequestStatus (command : Int) (s : State) : Host.Outcome State Fault Refusal :=
  .next (requestStatusState command s)

/-- The operand conditions of I2C_EXCHANGE (44_exchange R160). -/
def i2cAdmits (command : Int) (raw : List Byte) : Bool :=
  isU8 command && family (byteOf command) == .reqI2c
    && raw.length == payloadSize (shapeOf (byteOf command))

/-- The result of an I2C exchange: the payload bytes, uninterpreted (44_exchange R160). -/
def i2cResult (F : FrameReg) : Option Result := F.payload.map Result.raw

/-- I2C_EXCHANGE on a state (44_exchange R160). -/
def i2cExchangeState (command : Int) (raw : List Byte) (s : State) : State :=
  requestResponse (i2cAdmits command raw) (byteOf command) raw i2cResult s

/-- I2C_EXCHANGE (44_exchange R160). -/
def execI2cExchange (command : Int) (raw : List Byte) (s : State) : Host.Outcome State Fault Refusal :=
  .next (i2cExchangeState command raw s)

end Sys2Proof.Machine
end

