-- ==== Sys2Proof/Machine/WireFrames.lean ====
section
/-! DEFINITION. The meanings of the wire rows. A frame of any row that stands before the codec is decoded: `F`, `pos` and the status
outputs are those of one DECODE over its bytes (30_encoding R50, R75; 42_decode R101; log 3). One definition per row, so that each
can be mended alone. -/

namespace Sys2Proof.Machine

/-- Plain setting 0x00 (30_encoding R61). -/
def execSet00 (h : Header) (d : SettingsData) (k : Byte) (s : State) : Host.Outcome State Fault Refusal :=
  .next (runFrame (frameWith 0x00#8 h (settingsBytes d) k) s)

/-- Plain setting 0x01 (30_encoding R61). -/
def execSet01 (h : Header) (d : SettingsData) (k : Byte) (s : State) : Host.Outcome State Fault Refusal :=
  .next (runFrame (frameWith 0x01#8 h (settingsBytes d) k) s)

/-- Plain setting 0x02 (30_encoding R61). -/
def execSet02 (h : Header) (d : SettingsData) (k : Byte) (s : State) : Host.Outcome State Fault Refusal :=
  .next (runFrame (frameWith 0x02#8 h (settingsBytes d) k) s)

/-- Plain setting 0x03 (30_encoding R61). -/
def execSet03 (h : Header) (d : SettingsData) (k : Byte) (s : State) : Host.Outcome State Fault Refusal :=
  .next (runFrame (frameWith 0x03#8 h (settingsBytes d) k) s)

/-- Plain setting 0x04 (30_encoding R61). -/
def execSet04 (h : Header) (d : SettingsData) (k : Byte) (s : State) : Host.Outcome State Fault Refusal :=
  .next (runFrame (frameWith 0x04#8 h (settingsBytes d) k) s)

/-- Plain setting 0x05 (30_encoding R61). -/
def execSet05 (h : Header) (d : SettingsData) (k : Byte) (s : State) : Host.Outcome State Fault Refusal :=
  .next (runFrame (frameWith 0x05#8 h (settingsBytes d) k) s)

/-- Plain setting 0x06 (30_encoding R61). -/
def execSet06 (h : Header) (d : SettingsData) (k : Byte) (s : State) : Host.Outcome State Fault Refusal :=
  .next (runFrame (frameWith 0x06#8 h (settingsBytes d) k) s)

/-- Plain setting 0x07 (30_encoding R61). -/
def execSet07 (h : Header) (d : SettingsData) (k : Byte) (s : State) : Host.Outcome State Fault Refusal :=
  .next (runFrame (frameWith 0x07#8 h (settingsBytes d) k) s)

/-- Plain setting 0x08 (30_encoding R61). -/
def execSet08 (h : Header) (d : SettingsData) (k : Byte) (s : State) : Host.Outcome State Fault Refusal :=
  .next (runFrame (frameWith 0x08#8 h (settingsBytes d) k) s)

/-- Plain setting 0x09 (30_encoding R61). -/
def execSet09 (h : Header) (d : SettingsData) (k : Byte) (s : State) : Host.Outcome State Fault Refusal :=
  .next (runFrame (frameWith 0x09#8 h (settingsBytes d) k) s)

/-- Plain setting 0x0A (30_encoding R61). -/
def execSet0A (h : Header) (d : SettingsData) (k : Byte) (s : State) : Host.Outcome State Fault Refusal :=
  .next (runFrame (frameWith 0x0A#8 h (settingsBytes d) k) s)

/-- Plain setting 0x0B (30_encoding R61). -/
def execSet0B (h : Header) (d : SettingsData) (k : Byte) (s : State) : Host.Outcome State Fault Refusal :=
  .next (runFrame (frameWith 0x0B#8 h (settingsBytes d) k) s)

/-- Plain setting 0x0C (30_encoding R61). -/
def execSet0C (h : Header) (d : SettingsData) (k : Byte) (s : State) : Host.Outcome State Fault Refusal :=
  .next (runFrame (frameWith 0x0C#8 h (settingsBytes d) k) s)

/-- Plain setting 0x0D (30_encoding R61). -/
def execSet0D (h : Header) (d : SettingsData) (k : Byte) (s : State) : Host.Outcome State Fault Refusal :=
  .next (runFrame (frameWith 0x0D#8 h (settingsBytes d) k) s)

/-- Plain setting 0x0E (30_encoding R61). -/
def execSet0E (h : Header) (d : SettingsData) (k : Byte) (s : State) : Host.Outcome State Fault Refusal :=
  .next (runFrame (frameWith 0x0E#8 h (settingsBytes d) k) s)

/-- Acknowledgement of a plain setting 0x10 (30_encoding R61). -/
def execAck10 (h : Header) (d : SettingsData) (k : Byte) (s : State) : Host.Outcome State Fault Refusal :=
  .next (runFrame (frameWith 0x10#8 h (settingsBytes d) k) s)

/-- Acknowledgement of a plain setting 0x11 (30_encoding R61). -/
def execAck11 (h : Header) (d : SettingsData) (k : Byte) (s : State) : Host.Outcome State Fault Refusal :=
  .next (runFrame (frameWith 0x11#8 h (settingsBytes d) k) s)

/-- Acknowledgement of a plain setting 0x12 (30_encoding R61). -/
def execAck12 (h : Header) (d : SettingsData) (k : Byte) (s : State) : Host.Outcome State Fault Refusal :=
  .next (runFrame (frameWith 0x12#8 h (settingsBytes d) k) s)

/-- Acknowledgement of a plain setting 0x13 (30_encoding R61). -/
def execAck13 (h : Header) (d : SettingsData) (k : Byte) (s : State) : Host.Outcome State Fault Refusal :=
  .next (runFrame (frameWith 0x13#8 h (settingsBytes d) k) s)

/-- Acknowledgement of a plain setting 0x14 (30_encoding R61). -/
def execAck14 (h : Header) (d : SettingsData) (k : Byte) (s : State) : Host.Outcome State Fault Refusal :=
  .next (runFrame (frameWith 0x14#8 h (settingsBytes d) k) s)

/-- Acknowledgement of a plain setting 0x15 (30_encoding R61). -/
def execAck15 (h : Header) (d : SettingsData) (k : Byte) (s : State) : Host.Outcome State Fault Refusal :=
  .next (runFrame (frameWith 0x15#8 h (settingsBytes d) k) s)

/-- Acknowledgement of a plain setting 0x16 (30_encoding R61). -/
def execAck16 (h : Header) (d : SettingsData) (k : Byte) (s : State) : Host.Outcome State Fault Refusal :=
  .next (runFrame (frameWith 0x16#8 h (settingsBytes d) k) s)

/-- Acknowledgement of a plain setting 0x17 (30_encoding R61). -/
def execAck17 (h : Header) (d : SettingsData) (k : Byte) (s : State) : Host.Outcome State Fault Refusal :=
  .next (runFrame (frameWith 0x17#8 h (settingsBytes d) k) s)

/-- Acknowledgement of a plain setting 0x18 (30_encoding R61). -/
def execAck18 (h : Header) (d : SettingsData) (k : Byte) (s : State) : Host.Outcome State Fault Refusal :=
  .next (runFrame (frameWith 0x18#8 h (settingsBytes d) k) s)

/-- Acknowledgement of a plain setting 0x19 (30_encoding R61). -/
def execAck19 (h : Header) (d : SettingsData) (k : Byte) (s : State) : Host.Outcome State Fault Refusal :=
  .next (runFrame (frameWith 0x19#8 h (settingsBytes d) k) s)

/-- Acknowledgement of a plain setting 0x1A (30_encoding R61). -/
def execAck1A (h : Header) (d : SettingsData) (k : Byte) (s : State) : Host.Outcome State Fault Refusal :=
  .next (runFrame (frameWith 0x1A#8 h (settingsBytes d) k) s)

/-- Acknowledgement of a plain setting 0x1B (30_encoding R61). -/
def execAck1B (h : Header) (d : SettingsData) (k : Byte) (s : State) : Host.Outcome State Fault Refusal :=
  .next (runFrame (frameWith 0x1B#8 h (settingsBytes d) k) s)

/-- Acknowledgement of a plain setting 0x1C (30_encoding R61). -/
def execAck1C (h : Header) (d : SettingsData) (k : Byte) (s : State) : Host.Outcome State Fault Refusal :=
  .next (runFrame (frameWith 0x1C#8 h (settingsBytes d) k) s)

/-- Acknowledgement of a plain setting 0x1D (30_encoding R61). -/
def execAck1D (h : Header) (d : SettingsData) (k : Byte) (s : State) : Host.Outcome State Fault Refusal :=
  .next (runFrame (frameWith 0x1D#8 h (settingsBytes d) k) s)

/-- Acknowledgement of a plain setting 0x1E (30_encoding R61). -/
def execAck1E (h : Header) (d : SettingsData) (k : Byte) (s : State) : Host.Outcome State Fault Refusal :=
  .next (runFrame (frameWith 0x1E#8 h (settingsBytes d) k) s)

/-- Control setting 0x20 (30_encoding R61). -/
def execCtl20 (h : Header) (d : SettingsData) (k : Byte) (s : State) : Host.Outcome State Fault Refusal :=
  .next (runFrame (frameWith 0x20#8 h (settingsBytes d) k) s)

/-- Control setting 0x21 (30_encoding R61). -/
def execCtl21 (h : Header) (d : SettingsData) (k : Byte) (s : State) : Host.Outcome State Fault Refusal :=
  .next (runFrame (frameWith 0x21#8 h (settingsBytes d) k) s)

/-- Control setting 0x22 (30_encoding R61). -/
def execCtl22 (h : Header) (d : SettingsData) (k : Byte) (s : State) : Host.Outcome State Fault Refusal :=
  .next (runFrame (frameWith 0x22#8 h (settingsBytes d) k) s)

/-- Control setting 0x23 (30_encoding R61). -/
def execCtl23 (h : Header) (d : SettingsData) (k : Byte) (s : State) : Host.Outcome State Fault Refusal :=
  .next (runFrame (frameWith 0x23#8 h (settingsBytes d) k) s)

/-- Control setting 0x24 (30_encoding R61). -/
def execCtl24 (h : Header) (d : SettingsData) (k : Byte) (s : State) : Host.Outcome State Fault Refusal :=
  .next (runFrame (frameWith 0x24#8 h (settingsBytes d) k) s)

/-- Acknowledgement of a control setting 0x30 (30_encoding R61). -/
def execCack30 (h : Header) (d : SettingsData) (k : Byte) (s : State) : Host.Outcome State Fault Refusal :=
  .next (runFrame (frameWith 0x30#8 h (settingsBytes d) k) s)

/-- Acknowledgement of a control setting 0x31 (30_encoding R61). -/
def execCack31 (h : Header) (d : SettingsData) (k : Byte) (s : State) : Host.Outcome State Fault Refusal :=
  .next (runFrame (frameWith 0x31#8 h (settingsBytes d) k) s)

/-- Acknowledgement of a control setting 0x32 (30_encoding R61). -/
def execCack32 (h : Header) (d : SettingsData) (k : Byte) (s : State) : Host.Outcome State Fault Refusal :=
  .next (runFrame (frameWith 0x32#8 h (settingsBytes d) k) s)

/-- Acknowledgement of a control setting 0x33 (30_encoding R61). -/
def execCack33 (h : Header) (d : SettingsData) (k : Byte) (s : State) : Host.Outcome State Fault Refusal :=
  .next (runFrame (frameWith 0x33#8 h (settingsBytes d) k) s)

/-- Acknowledgement of a control setting 0x34 (30_encoding R61). -/
def execCack34 (h : Header) (d : SettingsData) (k : Byte) (s : State) : Host.Outcome State Fault Refusal :=
  .next (runFrame (frameWith 0x34#8 h (settingsBytes d) k) s)

/-- Status read request 0x40 (30_encoding R62). -/
def execRd40 (h : Header) (trigger : Byte) (k : Byte) (s : State) : Host.Outcome State Fault Refusal :=
  .next (runFrame (frameWith 0x40#8 h [trigger] k) s)

/-- Status read request 0x41 (30_encoding R62). -/
def execRd41 (h : Header) (trigger : Byte) (k : Byte) (s : State) : Host.Outcome State Fault Refusal :=
  .next (runFrame (frameWith 0x41#8 h [trigger] k) s)

/-- Status read request 0x42 (30_encoding R62). -/
def execRd42 (h : Header) (trigger : Byte) (k : Byte) (s : State) : Host.Outcome State Fault Refusal :=
  .next (runFrame (frameWith 0x42#8 h [trigger] k) s)

/-- Status read request 0x43 (30_encoding R62). -/
def execRd43 (h : Header) (trigger : Byte) (k : Byte) (s : State) : Host.Outcome State Fault Refusal :=
  .next (runFrame (frameWith 0x43#8 h [trigger] k) s)

/-- Readback 0x50 (30_encoding R63). -/
def execRb50 (h : Header) (d : MotorData) (k : Byte) (s : State) : Host.Outcome State Fault Refusal :=
  .next (runFrame (frameWith 0x50#8 h (motorBytes d) k) s)

/-- Readback 0x51 (30_encoding R64). -/
def execRb51 (h : Header) (d : OtherData) (k : Byte) (s : State) : Host.Outcome State Fault Refusal :=
  .next (runFrame (frameWith 0x51#8 h (otherBytes d) k) s)

/-- Readback 0x52 (30_encoding R65). -/
def execRb52 (h : Header) (d : PidData) (k : Byte) (s : State) : Host.Outcome State Fault Refusal :=
  .next (runFrame (frameWith 0x52#8 h (pidBytes d) k) s)

/-- Readback 0x53 (30_encoding R65). -/
def execRb53 (h : Header) (d : PidData) (k : Byte) (s : State) : Host.Outcome State Fault Refusal :=
  .next (runFrame (frameWith 0x53#8 h (pidBytes d) k) s)

/-- I2C request 0x60, opaque payload (30_encoding R66, R67). -/
def execI2cRdregReq (h : Header) (raw : List Byte) (k : Byte) (s : State) : Host.Outcome State Fault Refusal :=
  .next (runFrame (frameWith 0x60#8 h raw k) s)

/-- I2C request 0x61, opaque payload (30_encoding R66, R67). -/
def execI2cWrregReq (h : Header) (raw : List Byte) (k : Byte) (s : State) : Host.Outcome State Fault Refusal :=
  .next (runFrame (frameWith 0x61#8 h raw k) s)

/-- I2C request 0x62, opaque payload (30_encoding R66, R67). -/
def execI2cRdrawReq (h : Header) (raw : List Byte) (k : Byte) (s : State) : Host.Outcome State Fault Refusal :=
  .next (runFrame (frameWith 0x62#8 h raw k) s)

/-- I2C request 0x63, opaque payload (30_encoding R66, R67). -/
def execI2cWrrawReq (h : Header) (raw : List Byte) (k : Byte) (s : State) : Host.Outcome State Fault Refusal :=
  .next (runFrame (frameWith 0x63#8 h raw k) s)

/-- I2C response 0x70, opaque payload (30_encoding R66, R68). -/
def execI2cRdregResp (h : Header) (raw : List Byte) (k : Byte) (s : State) : Host.Outcome State Fault Refusal :=
  .next (runFrame (frameWith 0x70#8 h raw k) s)

/-- I2C response 0x71, opaque payload (30_encoding R66, R68). -/
def execI2cWrregResp (h : Header) (raw : List Byte) (k : Byte) (s : State) : Host.Outcome State Fault Refusal :=
  .next (runFrame (frameWith 0x71#8 h raw k) s)

/-- I2C response 0x72, opaque payload (30_encoding R66, R68). -/
def execI2cRdrawResp (h : Header) (raw : List Byte) (k : Byte) (s : State) : Host.Outcome State Fault Refusal :=
  .next (runFrame (frameWith 0x72#8 h raw k) s)

/-- I2C response 0x73, opaque payload (30_encoding R66, R68). -/
def execI2cWrrawResp (h : Header) (raw : List Byte) (k : Byte) (s : State) : Host.Outcome State Fault Refusal :=
  .next (runFrame (frameWith 0x73#8 h raw k) s)

/-- Fallback row of request framing; under `STRICT_UNKNOWN` the pass raises `UNKNOWN_COMMAND` (30_encoding R72; 42_decode R109). -/
def execOtherReq (command deviceId : Byte) (d : SettingsData) (k : Byte) (s : State) : Host.Outcome State Fault Refusal :=
  .next (runFrame (frameWith command ⟨.request, deviceId⟩ (settingsBytes d) k) s)

/-- Fallback row of response framing; under `STRICT_UNKNOWN` the pass raises `UNKNOWN_COMMAND` (30_encoding R72; 42_decode R109). -/
def execOtherResp (magic2 command deviceId : Byte) (d : SettingsData) (k : Byte) (s : State) : Host.Outcome State Fault Refusal :=
  .next (runFrame (frameWith command ⟨.response magic2, deviceId⟩ (settingsBytes d) k) s)

end Sys2Proof.Machine
end

