-- ==== Sys2Proof/Machine/Dispatch.lean ====
section
/-! DEFINITION. One arm per constructor of `Instr`, each one direct call of the instruction's meaning. -/

namespace Sys2Proof.Machine

def exec (i : Instr) (s : State) : Host.Outcome State Fault Refusal :=
  match i with
  | .set00 h d k => Sys2Proof.Machine.execSet00 h d k s
  | .set01 h d k => Sys2Proof.Machine.execSet01 h d k s
  | .set02 h d k => Sys2Proof.Machine.execSet02 h d k s
  | .set03 h d k => Sys2Proof.Machine.execSet03 h d k s
  | .set04 h d k => Sys2Proof.Machine.execSet04 h d k s
  | .set05 h d k => Sys2Proof.Machine.execSet05 h d k s
  | .set06 h d k => Sys2Proof.Machine.execSet06 h d k s
  | .set07 h d k => Sys2Proof.Machine.execSet07 h d k s
  | .set08 h d k => Sys2Proof.Machine.execSet08 h d k s
  | .set09 h d k => Sys2Proof.Machine.execSet09 h d k s
  | .set0A h d k => Sys2Proof.Machine.execSet0A h d k s
  | .set0B h d k => Sys2Proof.Machine.execSet0B h d k s
  | .set0C h d k => Sys2Proof.Machine.execSet0C h d k s
  | .set0D h d k => Sys2Proof.Machine.execSet0D h d k s
  | .set0E h d k => Sys2Proof.Machine.execSet0E h d k s
  | .ack10 h d k => Sys2Proof.Machine.execAck10 h d k s
  | .ack11 h d k => Sys2Proof.Machine.execAck11 h d k s
  | .ack12 h d k => Sys2Proof.Machine.execAck12 h d k s
  | .ack13 h d k => Sys2Proof.Machine.execAck13 h d k s
  | .ack14 h d k => Sys2Proof.Machine.execAck14 h d k s
  | .ack15 h d k => Sys2Proof.Machine.execAck15 h d k s
  | .ack16 h d k => Sys2Proof.Machine.execAck16 h d k s
  | .ack17 h d k => Sys2Proof.Machine.execAck17 h d k s
  | .ack18 h d k => Sys2Proof.Machine.execAck18 h d k s
  | .ack19 h d k => Sys2Proof.Machine.execAck19 h d k s
  | .ack1A h d k => Sys2Proof.Machine.execAck1A h d k s
  | .ack1B h d k => Sys2Proof.Machine.execAck1B h d k s
  | .ack1C h d k => Sys2Proof.Machine.execAck1C h d k s
  | .ack1D h d k => Sys2Proof.Machine.execAck1D h d k s
  | .ack1E h d k => Sys2Proof.Machine.execAck1E h d k s
  | .ctl20 h d k => Sys2Proof.Machine.execCtl20 h d k s
  | .ctl21 h d k => Sys2Proof.Machine.execCtl21 h d k s
  | .ctl22 h d k => Sys2Proof.Machine.execCtl22 h d k s
  | .ctl23 h d k => Sys2Proof.Machine.execCtl23 h d k s
  | .ctl24 h d k => Sys2Proof.Machine.execCtl24 h d k s
  | .cack30 h d k => Sys2Proof.Machine.execCack30 h d k s
  | .cack31 h d k => Sys2Proof.Machine.execCack31 h d k s
  | .cack32 h d k => Sys2Proof.Machine.execCack32 h d k s
  | .cack33 h d k => Sys2Proof.Machine.execCack33 h d k s
  | .cack34 h d k => Sys2Proof.Machine.execCack34 h d k s
  | .rd40 h trigger k => Sys2Proof.Machine.execRd40 h trigger k s
  | .rd41 h trigger k => Sys2Proof.Machine.execRd41 h trigger k s
  | .rd42 h trigger k => Sys2Proof.Machine.execRd42 h trigger k s
  | .rd43 h trigger k => Sys2Proof.Machine.execRd43 h trigger k s
  | .rb50 h d k => Sys2Proof.Machine.execRb50 h d k s
  | .rb51 h d k => Sys2Proof.Machine.execRb51 h d k s
  | .rb52 h d k => Sys2Proof.Machine.execRb52 h d k s
  | .rb53 h d k => Sys2Proof.Machine.execRb53 h d k s
  | .i2cRdregReq h raw k => Sys2Proof.Machine.execI2cRdregReq h raw k s
  | .i2cWrregReq h raw k => Sys2Proof.Machine.execI2cWrregReq h raw k s
  | .i2cRdrawReq h raw k => Sys2Proof.Machine.execI2cRdrawReq h raw k s
  | .i2cWrrawReq h raw k => Sys2Proof.Machine.execI2cWrrawReq h raw k s
  | .i2cRdregResp h raw k => Sys2Proof.Machine.execI2cRdregResp h raw k s
  | .i2cWrregResp h raw k => Sys2Proof.Machine.execI2cWrregResp h raw k s
  | .i2cRdrawResp h raw k => Sys2Proof.Machine.execI2cRdrawResp h raw k s
  | .i2cWrrawResp h raw k => Sys2Proof.Machine.execI2cWrrawResp h raw k s
  | .otherReq command deviceId d k => Sys2Proof.Machine.execOtherReq command deviceId d k s
  | .otherResp magic2 command deviceId d k => Sys2Proof.Machine.execOtherResp magic2 command deviceId d k s
  | .checksum S => Sys2Proof.Machine.execChecksum S s
  | .frameLength command => Sys2Proof.Machine.execFrameLength command s
  | .decode B => Sys2Proof.Machine.execDecode B s
  | .encode F => Sys2Proof.Machine.execEncode F s
  | .setTarget id => Sys2Proof.Machine.execSetTarget id s
  | .sendSetting command data1 data2 data3 => Sys2Proof.Machine.execSendSetting command data1 data2 data3 s
  | .verifySettingResponse command data1 data2 data3 => Sys2Proof.Machine.execVerifySettingResponse command data1 data2 data3 s
  | .requestStatus command => Sys2Proof.Machine.execRequestStatus command s
  | .i2cExchange command raw => Sys2Proof.Machine.execI2cExchange command raw s

end Sys2Proof.Machine
end

