-- ==== Sys2Proof/WellFormed.lean ====
section
/-! DEFINITION. Well-formed instructions: what the encodings admit (30_encoding R55, R60, R66). -/

namespace Sys2Proof

/-- The code may stand in the fallback row of request framing: no family, and not the marker byte (30_encoding R57, R72). -/
def isFallbackRequest (c : Byte) : Bool := family c == .other && c != magic1

/-- The code may stand in the fallback row of response framing: no family (30_encoding R72). -/
def isFallbackResponse (c : Byte) : Bool := family c == .other

/-- The raw bytes of an I2C frame have the size of their shape (30_encoding R60, R66). -/
def rawFits (raw : List Byte) (s : Shape) : Bool := raw.length == payloadSize s

/-- An instruction that the encodings admit. Typed fields always fit. Raw runs must have their shape's size, a fallback code
must lie in no family, and a request never begins with 0xAA. A host operation takes any operands: what it refuses is its meaning's
matter (60_exceptions R207). -/
def wellFormed (i : Instr) : Bool :=
  match i with
  | .set00 _ _ _ => true
  | .set01 _ _ _ => true
  | .set02 _ _ _ => true
  | .set03 _ _ _ => true
  | .set04 _ _ _ => true
  | .set05 _ _ _ => true
  | .set06 _ _ _ => true
  | .set07 _ _ _ => true
  | .set08 _ _ _ => true
  | .set09 _ _ _ => true
  | .set0A _ _ _ => true
  | .set0B _ _ _ => true
  | .set0C _ _ _ => true
  | .set0D _ _ _ => true
  | .set0E _ _ _ => true
  | .ack10 _ _ _ => true
  | .ack11 _ _ _ => true
  | .ack12 _ _ _ => true
  | .ack13 _ _ _ => true
  | .ack14 _ _ _ => true
  | .ack15 _ _ _ => true
  | .ack16 _ _ _ => true
  | .ack17 _ _ _ => true
  | .ack18 _ _ _ => true
  | .ack19 _ _ _ => true
  | .ack1A _ _ _ => true
  | .ack1B _ _ _ => true
  | .ack1C _ _ _ => true
  | .ack1D _ _ _ => true
  | .ack1E _ _ _ => true
  | .ctl20 _ _ _ => true
  | .ctl21 _ _ _ => true
  | .ctl22 _ _ _ => true
  | .ctl23 _ _ _ => true
  | .ctl24 _ _ _ => true
  | .cack30 _ _ _ => true
  | .cack31 _ _ _ => true
  | .cack32 _ _ _ => true
  | .cack33 _ _ _ => true
  | .cack34 _ _ _ => true
  | .rd40 _ _ _ => true
  | .rd41 _ _ _ => true
  | .rd42 _ _ _ => true
  | .rd43 _ _ _ => true
  | .rb50 _ _ _ => true
  | .rb51 _ _ _ => true
  | .rb52 _ _ _ => true
  | .rb53 _ _ _ => true
  | .i2cRdregReq _ raw _ => rawFits raw .i2cRdregReq
  | .i2cWrregReq _ raw _ => rawFits raw .i2cWrregReq
  | .i2cRdrawReq _ raw _ => rawFits raw .i2cRdrawReq
  | .i2cWrrawReq _ raw _ => rawFits raw .i2cWrrawReq
  | .i2cRdregResp _ raw _ => rawFits raw .i2cRdregResp
  | .i2cWrregResp _ raw _ => rawFits raw .i2cWrregResp
  | .i2cRdrawResp _ raw _ => rawFits raw .i2cRdrawResp
  | .i2cWrrawResp _ raw _ => rawFits raw .i2cWrrawResp
  | .otherReq c _ _ _ => isFallbackRequest c
  | .otherResp _ c _ _ _ => isFallbackResponse c
  | .checksum _ => true
  | .frameLength _ => true
  | .decode _ => true
  | .encode _ => true
  | .setTarget _ => true
  | .sendSetting _ _ _ _ => true
  | .verifySettingResponse _ _ _ _ => true
  | .requestStatus _ => true
  | .i2cExchange _ _ => true

end Sys2Proof
end

