-- ==== Sys2Proof/Decode.lean ====
section
/-! DEFINITION. From what is put before the block to an instruction and back: `decode`, total on any request, rejecting by name,
and `encode` (30_encoding R51 to R76). -/

namespace Sys2Proof

/-- Why a request is no instruction. -/
inductive DecodeError where
  /-- The bytes end before the frame their own first bytes announce (42_decode R103). -/
  | frameTooShort
  /-- Op-select 9 to 15 "are not operations" (30_encoding R51). -/
  | noSuchOperation (sel : BitVec 4)
  /-- The operands are not of the number and kinds the operation takes (60_exceptions R207). -/
  | operandKind (sel : BitVec 4)
deriving DecidableEq, Repr

/-! ## Wire frames -/

/-- The rows of shape `SETTINGS`, by command code (30_encoding R55, R59). -/
def settingsRows : List (Byte × (Header → SettingsData → Byte → Instr)) :=
  [(0x00#8, .set00), (0x01#8, .set01), (0x02#8, .set02), (0x03#8, .set03), (0x04#8, .set04),
   (0x05#8, .set05), (0x06#8, .set06), (0x07#8, .set07), (0x08#8, .set08), (0x09#8, .set09),
   (0x0A#8, .set0A), (0x0B#8, .set0B), (0x0C#8, .set0C), (0x0D#8, .set0D), (0x0E#8, .set0E),
   (0x10#8, .ack10), (0x11#8, .ack11), (0x12#8, .ack12), (0x13#8, .ack13), (0x14#8, .ack14),
   (0x15#8, .ack15), (0x16#8, .ack16), (0x17#8, .ack17), (0x18#8, .ack18), (0x19#8, .ack19),
   (0x1A#8, .ack1A), (0x1B#8, .ack1B), (0x1C#8, .ack1C), (0x1D#8, .ack1D), (0x1E#8, .ack1E),
   (0x20#8, .ctl20), (0x21#8, .ctl21), (0x22#8, .ctl22), (0x23#8, .ctl23), (0x24#8, .ctl24),
   (0x30#8, .cack30), (0x31#8, .cack31), (0x32#8, .cack32), (0x33#8, .cack33), (0x34#8, .cack34)]

/-- The rows of shape `READ_TRIGGER`, by command code (30_encoding R59). -/
def triggerRows : List (Byte × (Header → Byte → Byte → Instr)) :=
  [(0x40#8, .rd40), (0x41#8, .rd41), (0x42#8, .rd42), (0x43#8, .rd43)]

/-- The instruction of shape `SETTINGS` with this code: a named row, else the fallback row of the framing present
(30_encoding R72, R75, R76). -/
def settingsInstr (cmd : Byte) (h : Header) (d : SettingsData) (k : Byte) : Instr :=
  match settingsRows.lookup cmd with
  | some mk => mk h d k
  | none =>
    match h.framing with
    | .request => .otherReq cmd h.deviceId d k
    | .response m => .otherResp m cmd h.deviceId d k

/-- The instruction of shape `READ_TRIGGER` with this code. -/
def triggerInstr (cmd : Byte) (h : Header) (t k : Byte) : Instr :=
  match triggerRows.lookup cmd with
  | some mk => mk h t k
  | none => .rd40 h t k

/-- The instruction that a frame's fields stand for: the logical command selects the shape, whatever the framing
(30_encoding R59, R76). -/
def instrOf (cmd : Byte) (h : Header) (p : List Byte) (k : Byte) : Instr :=
  match shapeOf cmd with
  | .settings => settingsInstr cmd h (settingsView p) k
  | .readTrigger => triggerInstr cmd h (triggerView p) k
  | .motorStatus => .rb50 h (motorView p) k
  | .otherStatus => .rb51 h (otherView p) k
  | .pidRbSpeed => .rb52 h (pidView p) k
  | .pidRbPos => .rb53 h (pidView p) k
  | .i2cRdregReq => .i2cRdregReq h p k
  | .i2cWrregReq => .i2cWrregReq h p k
  | .i2cRdrawReq => .i2cRdrawReq h p k
  | .i2cWrrawReq => .i2cWrrawReq h p k
  | .i2cRdregResp => .i2cRdregResp h p k
  | .i2cWrregResp => .i2cWrregResp h p k
  | .i2cRdrawResp => .i2cRdrawResp h p k
  | .i2cWrrawResp => .i2cWrrawResp h p k

/-- What follows the command code: device id, payload, checksum (30_encoding R52, R53). -/
def decodeAfterCommand (fr : Framing) (cmd : Byte) (rest : List Byte) : Except DecodeError Instr :=
  match rest with
  | [] => .error .frameTooShort
  | dev :: tail =>
    match tail[payloadSize (shapeOf cmd)]? with
    | none => .error .frameTooShort
    | some k => .ok (instrOf cmd ⟨fr, dev⟩ (tail.take (payloadSize (shapeOf cmd))) k)

/-- A wire frame's instruction. The first byte alone tells request from response, and bytes after the frame are not read
(30_encoding R57; 42_decode R111). -/
def decodeFrame (B : List Byte) : Except DecodeError Instr :=
  match B with
  | [] => .error .frameTooShort
  | b0 :: rest =>
    if b0 = magic1 then
      match rest with
      | m :: cmd :: rest' => decodeAfterCommand (.response m) cmd rest'
      | _ => .error .frameTooShort
    else decodeAfterCommand .request b0 rest

/-! ## Host operations -/

/-- A host operation's instruction: op-select by 30_encoding R51, omitted operands at their defaults (10_state R18; 30_encoding
R74). -/
def decodeOp (sel : BitVec 4) (args : List Operand) : Except DecodeError Instr :=
  if 9 ≤ sel.toNat then .error (.noSuchOperation sel)
  else match sel.toNat, args with
  | 0, [.bytes S] => .ok (.checksum S)
  | 1, [.int c] => .ok (.frameLength c)
  | 2, [.bytes B] => .ok (.decode B)
  | 3, [.frame F] => .ok (.encode F)
  | 4, [.int id] => .ok (.setTarget id)
  | 5, [.int c, .int d1] => .ok (.sendSetting c d1 0 0)
  | 5, [.int c, .int d1, .int d2] => .ok (.sendSetting c d1 d2 0)
  | 5, [.int c, .int d1, .int d2, .int d3] => .ok (.sendSetting c d1 d2 d3)
  | 6, [.int c] => .ok (.verifySettingResponse c 0 0 0)
  | 6, [.int c, .int d1] => .ok (.verifySettingResponse c d1 0 0)
  | 6, [.int c, .int d1, .int d2] => .ok (.verifySettingResponse c d1 d2 0)
  | 6, [.int c, .int d1, .int d2, .int d3] => .ok (.verifySettingResponse c d1 d2 d3)
  | 7, [.int c] => .ok (.requestStatus c)
  | 8, [.int c, .bytes raw] => .ok (.i2cExchange c raw)
  | _, _ => .error (.operandKind sel)

/-- The instruction a request stands for (30_encoding R50). -/
def decode (r : Request) : Except DecodeError Instr :=
  match r with
  | .op sel args => decodeOp sel args
  | .frame B => decodeFrame B

/-! ## The encoder -/

/-- The frame of a wire row: its code, header, payload bytes and checksum (30_encoding R52 to R68). Host operations have none. -/
def wireFrame (i : Instr) : Option Frame :=
  match i with
  | .set00 h d k => some (frameWith 0x00#8 h (settingsBytes d) k)
  | .set01 h d k => some (frameWith 0x01#8 h (settingsBytes d) k)
  | .set02 h d k => some (frameWith 0x02#8 h (settingsBytes d) k)
  | .set03 h d k => some (frameWith 0x03#8 h (settingsBytes d) k)
  | .set04 h d k => some (frameWith 0x04#8 h (settingsBytes d) k)
  | .set05 h d k => some (frameWith 0x05#8 h (settingsBytes d) k)
  | .set06 h d k => some (frameWith 0x06#8 h (settingsBytes d) k)
  | .set07 h d k => some (frameWith 0x07#8 h (settingsBytes d) k)
  | .set08 h d k => some (frameWith 0x08#8 h (settingsBytes d) k)
  | .set09 h d k => some (frameWith 0x09#8 h (settingsBytes d) k)
  | .set0A h d k => some (frameWith 0x0A#8 h (settingsBytes d) k)
  | .set0B h d k => some (frameWith 0x0B#8 h (settingsBytes d) k)
  | .set0C h d k => some (frameWith 0x0C#8 h (settingsBytes d) k)
  | .set0D h d k => some (frameWith 0x0D#8 h (settingsBytes d) k)
  | .set0E h d k => some (frameWith 0x0E#8 h (settingsBytes d) k)
  | .ack10 h d k => some (frameWith 0x10#8 h (settingsBytes d) k)
  | .ack11 h d k => some (frameWith 0x11#8 h (settingsBytes d) k)
  | .ack12 h d k => some (frameWith 0x12#8 h (settingsBytes d) k)
  | .ack13 h d k => some (frameWith 0x13#8 h (settingsBytes d) k)
  | .ack14 h d k => some (frameWith 0x14#8 h (settingsBytes d) k)
  | .ack15 h d k => some (frameWith 0x15#8 h (settingsBytes d) k)
  | .ack16 h d k => some (frameWith 0x16#8 h (settingsBytes d) k)
  | .ack17 h d k => some (frameWith 0x17#8 h (settingsBytes d) k)
  | .ack18 h d k => some (frameWith 0x18#8 h (settingsBytes d) k)
  | .ack19 h d k => some (frameWith 0x19#8 h (settingsBytes d) k)
  | .ack1A h d k => some (frameWith 0x1A#8 h (settingsBytes d) k)
  | .ack1B h d k => some (frameWith 0x1B#8 h (settingsBytes d) k)
  | .ack1C h d k => some (frameWith 0x1C#8 h (settingsBytes d) k)
  | .ack1D h d k => some (frameWith 0x1D#8 h (settingsBytes d) k)
  | .ack1E h d k => some (frameWith 0x1E#8 h (settingsBytes d) k)
  | .ctl20 h d k => some (frameWith 0x20#8 h (settingsBytes d) k)
  | .ctl21 h d k => some (frameWith 0x21#8 h (settingsBytes d) k)
  | .ctl22 h d k => some (frameWith 0x22#8 h (settingsBytes d) k)
  | .ctl23 h d k => some (frameWith 0x23#8 h (settingsBytes d) k)
  | .ctl24 h d k => some (frameWith 0x24#8 h (settingsBytes d) k)
  | .cack30 h d k => some (frameWith 0x30#8 h (settingsBytes d) k)
  | .cack31 h d k => some (frameWith 0x31#8 h (settingsBytes d) k)
  | .cack32 h d k => some (frameWith 0x32#8 h (settingsBytes d) k)
  | .cack33 h d k => some (frameWith 0x33#8 h (settingsBytes d) k)
  | .cack34 h d k => some (frameWith 0x34#8 h (settingsBytes d) k)
  | .rd40 h t k => some (frameWith 0x40#8 h [t] k)
  | .rd41 h t k => some (frameWith 0x41#8 h [t] k)
  | .rd42 h t k => some (frameWith 0x42#8 h [t] k)
  | .rd43 h t k => some (frameWith 0x43#8 h [t] k)
  | .rb50 h d k => some (frameWith 0x50#8 h (motorBytes d) k)
  | .rb51 h d k => some (frameWith 0x51#8 h (otherBytes d) k)
  | .rb52 h d k => some (frameWith 0x52#8 h (pidBytes d) k)
  | .rb53 h d k => some (frameWith 0x53#8 h (pidBytes d) k)
  | .i2cRdregReq h raw k => some (frameWith 0x60#8 h raw k)
  | .i2cWrregReq h raw k => some (frameWith 0x61#8 h raw k)
  | .i2cRdrawReq h raw k => some (frameWith 0x62#8 h raw k)
  | .i2cWrrawReq h raw k => some (frameWith 0x63#8 h raw k)
  | .i2cRdregResp h raw k => some (frameWith 0x70#8 h raw k)
  | .i2cWrregResp h raw k => some (frameWith 0x71#8 h raw k)
  | .i2cRdrawResp h raw k => some (frameWith 0x72#8 h raw k)
  | .i2cWrrawResp h raw k => some (frameWith 0x73#8 h raw k)
  | .otherReq c dev d k => some (frameWith c ⟨.request, dev⟩ (settingsBytes d) k)
  | .otherResp m c dev d k => some (frameWith c ⟨.response m, dev⟩ (settingsBytes d) k)
  | .checksum _ => none
  | .frameLength _ => none
  | .decode _ => none
  | .encode _ => none
  | .setTarget _ => none
  | .sendSetting _ _ _ _ => none
  | .verifySettingResponse _ _ _ _ => none
  | .requestStatus _ => none
  | .i2cExchange _ _ => none

/-- The host request of a host operation, every operand written out (30_encoding R51). Wire rows have none. -/
def hostRequest (i : Instr) : Option Request :=
  match i with
  | .checksum S => some (.op 0#4 [.bytes S])
  | .frameLength c => some (.op 1#4 [.int c])
  | .decode B => some (.op 2#4 [.bytes B])
  | .encode F => some (.op 3#4 [.frame F])
  | .setTarget id => some (.op 4#4 [.int id])
  | .sendSetting c d1 d2 d3 => some (.op 5#4 [.int c, .int d1, .int d2, .int d3])
  | .verifySettingResponse c d1 d2 d3 => some (.op 6#4 [.int c, .int d1, .int d2, .int d3])
  | .requestStatus c => some (.op 7#4 [.int c])
  | .i2cExchange c raw => some (.op 8#4 [.int c, .bytes raw])
  | .set00 _ _ _ => none
  | .set01 _ _ _ => none
  | .set02 _ _ _ => none
  | .set03 _ _ _ => none
  | .set04 _ _ _ => none
  | .set05 _ _ _ => none
  | .set06 _ _ _ => none
  | .set07 _ _ _ => none
  | .set08 _ _ _ => none
  | .set09 _ _ _ => none
  | .set0A _ _ _ => none
  | .set0B _ _ _ => none
  | .set0C _ _ _ => none
  | .set0D _ _ _ => none
  | .set0E _ _ _ => none
  | .ack10 _ _ _ => none
  | .ack11 _ _ _ => none
  | .ack12 _ _ _ => none
  | .ack13 _ _ _ => none
  | .ack14 _ _ _ => none
  | .ack15 _ _ _ => none
  | .ack16 _ _ _ => none
  | .ack17 _ _ _ => none
  | .ack18 _ _ _ => none
  | .ack19 _ _ _ => none
  | .ack1A _ _ _ => none
  | .ack1B _ _ _ => none
  | .ack1C _ _ _ => none
  | .ack1D _ _ _ => none
  | .ack1E _ _ _ => none
  | .ctl20 _ _ _ => none
  | .ctl21 _ _ _ => none
  | .ctl22 _ _ _ => none
  | .ctl23 _ _ _ => none
  | .ctl24 _ _ _ => none
  | .cack30 _ _ _ => none
  | .cack31 _ _ _ => none
  | .cack32 _ _ _ => none
  | .cack33 _ _ _ => none
  | .cack34 _ _ _ => none
  | .rd40 _ _ _ => none
  | .rd41 _ _ _ => none
  | .rd42 _ _ _ => none
  | .rd43 _ _ _ => none
  | .rb50 _ _ _ => none
  | .rb51 _ _ _ => none
  | .rb52 _ _ _ => none
  | .rb53 _ _ _ => none
  | .i2cRdregReq _ _ _ => none
  | .i2cWrregReq _ _ _ => none
  | .i2cRdrawReq _ _ _ => none
  | .i2cWrrawReq _ _ _ => none
  | .i2cRdregResp _ _ _ => none
  | .i2cWrregResp _ _ _ => none
  | .i2cRdrawResp _ _ _ => none
  | .i2cWrrawResp _ _ _ => none
  | .otherReq _ _ _ _ => none
  | .otherResp _ _ _ _ _ => none

/-- The request of an instruction: a wire row's frame bytes, or a host operation's op-select and operands. -/
def encode (i : Instr) : Request :=
  match wireFrame i with
  | some F => .frame (frameBytes F)
  | none => (hostRequest i).getD (.frame [])

/-! ## Words of the opcode table -/

/-- The bytes of a word, bit 0 first: byte `j` is bits `8*j+7 .. 8*j`. For a word of the opcode table the first wire byte is thus the
least significant one; 30_encoding R75 writes `match` in wire order and numbers no bits (DESIGN CHOICE, log 2). -/
def wordBytes (n w : Nat) : List Byte :=
  match n with
  | 0 => []
  | m + 1 => BitVec.ofNat 8 w :: wordBytes m (w / 256)

/-- The zero operands of a host operation, which the table gives no bits (log 2). -/
def zeroOperands (sel : BitVec 4) : List Operand :=
  match sel.toNat with
  | 0 => [.bytes []]
  | 1 => [.int 0]
  | 2 => [.bytes []]
  | 3 => [.frame ⟨0, none, none, 0, .settings, .settings 0 0 0, 0⟩]
  | 4 => [.int 0]
  | 5 => [.int 0, .int 0, .int 0, .int 0]
  | 6 => [.int 0, .int 0, .int 0, .int 0]
  | 7 => [.int 0]
  | 8 => [.int 0, .bytes []]
  | _ => []

/-- The request that the table's bits stand for: fewer than 8 bits are an op-select number, else the leading bytes of a frame,
with zeros up to the longest frame (30_encoding R75; log 2). -/
def tableRequest (nbits w : Nat) : Request :=
  if nbits < 8 then .op (BitVec.ofNat 4 w) (zeroOperands (BitVec.ofNat 4 w))
  else .frame (wordBytes (nbits / 8) w ++ List.replicate (maxFrame - nbits / 8) 0x00#8)

/-- The instruction the decoder reads from the table's bits. -/
def decodeTableWord (nbits w : Nat) : Option Instr :=
  match decode (tableRequest nbits w) with
  | .ok i => some i
  | .error _ => none

end Sys2Proof
end

