-- ==== Sys2Proof/Machine/Surface.lean ====
section
/-! DEFINITION. The logical command surface: each pseudo-operation's wire words, and its expansion into host operations
(45_scaling_surface R190 to R195). -/

namespace Sys2Proof.Machine

/-- What a pseudo-operation expands to (45_scaling_surface R191 to R193). `resp` is the response code the verification is given. -/
inductive Plan where
  | setting (code resp : Byte) (w1 w2 w3 : Int)
  | status (code : Byte)
  | i2c (code : Byte) (raw : List Byte)
deriving DecidableEq, Repr

/-- A setting with the given wire words, unless one does not fit s32 (45_scaling_surface R178) or the code has no response
code (44_exchange R141). -/
def settingPlan (code : Byte) (w1 w2 w3 : Int) : Option Plan :=
  match respCode code with
  | some rc => if isS32 w1 && isS32 w2 && isS32 w3 then some (.setting code rc w1 w2 w3) else none
  | none => none

/-- The bytes of one named field, as many as its slot has (30_encoding R70; log 24). -/
def fieldBytes (a : I2cArgs) (slot : I2cSlot) : List Byte :=
  match slot.field with
  | .addr => wordBytes slot.width a.addr
  | .regLen => wordBytes slot.width a.regLen
  | .regAddr => wordBytes slot.width a.regAddr
  | .dataLen => wordBytes slot.width a.dataLen
  | .stop => wordBytes slot.width (if a.stop then 1 else 0)
  | .data => a.data.take slot.width
  | .result => []

/-- The arguments laid into the payload bytes, unused bytes 0 (45_scaling_surface R193). -/
def layRaw (slots : List I2cSlot) (size : Nat) (a : I2cArgs) : List Byte :=
  slots.foldl (fun raw slot => memWrite raw slot.offset (fieldBytes a slot)) (List.replicate size 0x00#8)

/-- The stated limits: a one-byte device address, a register address of at most two bytes (of one at least, where the operation
addresses a register), "up to 16 data bytes" (45_scaling_surface R193; log 24). -/
def i2cArgsOk (addressed : Bool) (a : I2cArgs) : Bool :=
  decide (a.addr < 256) && decide (a.regLen ≤ 2) && (!addressed || decide (1 ≤ a.regLen))
    && decide (a.regAddr < 256 ^ a.regLen) && decide (a.dataLen ≤ 16) && decide (a.data.length ≤ 16)

/-- An I2C pseudo-operation through the field map (45_scaling_surface R193). -/
def i2cPlan (cfg : Config) (code : Byte) (addressed : Bool) (a : I2cArgs) : Option Plan :=
  if i2cArgsOk addressed a then
    some (.i2c code (layRaw (overlayOf cfg.i2cMap (shapeOf code)) (payloadSize (shapeOf code)) a))
  else none

/-- The wire word that a source stands for; an index past the arguments gives 0. -/
def sourceWord (args : List Int) (src : WordSource) : Int :=
  match src with
  | .arg k => args.getD k 0
  | .const w => w.toInt

/-- A setting whose arguments' wire words are placed as the parameter says (00_scope R5; 45_scaling_surface R190). -/
def placedPlan (code : Byte) (use : WordUse) (args : List Int) : Option Plan :=
  settingPlan code (sourceWord args use.data1) (sourceWord args use.data2) (sourceWord args use.data3)

/-- One integer argument, unchanged (45_scaling_surface R190; log 22). -/
def integerPlan (code : Byte) (use : WordUse) (x : Phys) : Option Plan :=
  match physInt x with
  | some v => placedPlan code use [v]
  | none => none

/-- One integer argument times a scale, truncated where the scale is no integer (45_scaling_surface R190 row 5; log 22). -/
def scaledPlan (code : Byte) (use : WordUse) (scale : Rat) (x : Phys) : Option Plan :=
  match physInt x with
  | some v => placedPlan code use [truncRat (v * scale)]
  | none => none

/-- One integer argument, clamped to 0..255 (45_scaling_surface R174, R190, R194). -/
def bytePlan (code : Byte) (use : WordUse) (x : Phys) : Option Plan :=
  match physInt x with
  | some v => placedPlan code use [clampInt v 0 255]
  | none => none

/-- Three gains (45_scaling_surface R173, R190 rows 13 and 15). -/
def gainsPlan (code : Byte) (use : WordUse) (p i d : Phys) : Option Plan :=
  match physRat p, physRat i, physRat d with
  | some gp, some gi, some gd => placedPlan code use [wireGain gp, wireGain gi, wireGain gd]
  | _, _, _ => none

/-- A scaled target and a maximum current (45_scaling_surface R190 rows 12 and 14). -/
def targetPlan (code : Byte) (use : WordUse) (scale : Rat → Int) (x maxCurrent : Phys) : Option Plan :=
  match physRat x, physRat maxCurrent with
  | some v, some m => placedPlan code use [scale v, wireCurrent m]
  | _, _ => none

/-- A target current (45_scaling_surface R190 row 16). -/
def currentPlan (code : Byte) (use : WordUse) (x : Phys) : Option Plan :=
  match physRat x with
  | some v => placedPlan code use [wireCurrent v]
  | none => none

/-- The packed colour word and the brightness (45_scaling_surface R176, R177, R190 row 7). -/
def rgbPlan (code : Byte) (use : WordUse) (r g b mode brightness : Phys) : Option Plan :=
  match physInt r, physInt g, physInt b, physInt mode, physInt brightness with
  | some r', some g', some b', some m', some l' => placedPlan code use [packRgb r' g' b' m', clampInt l' 0 100]
  | _, _, _, _, _ => none

/-- The expansion of a pseudo-operation under the parameters, or none where it is refused (45_scaling_surface R190 to R194). On of
row 1 and the status of row 3 are `data1` and the other words 0 whatever the parameters are, as the spec says (R190 row 1, R191, R194). -/
def plan (cfg : Config) (op : SurfaceOp) : Option Plan :=
  match op with
  | .motor true => settingPlan cfg.surface.motor 1 0 0
  | .motor false => placedPlan cfg.surface.motor cfg.words.motorOff [cfg.motorOff.toInt]
  | .setMode mode => integerPlan cfg.surface.setMode cfg.words.setMode mode
  | .removeProtection status => bytePlan cfg.surface.removeProtection (useByOrder 1) status
  | .commitFlash =>
    settingPlan cfg.surface.commitFlash cfg.commitWords.data1.toInt cfg.commitWords.data2.toInt
      cfg.commitWords.data3.toInt
  | .setEncoderCount count =>
    scaledPlan cfg.surface.setEncoderCount cfg.words.setEncoderCount cfg.words.encoderScale count
  | .setButtonMode mode => integerPlan cfg.surface.setButtonMode cfg.words.setButtonMode mode
  | .setRgb r g b mode brightness => rgbPlan cfg.surface.setRgb cfg.words.setRgb r g b mode brightness
  | .setBaudRate rate => integerPlan cfg.surface.setBaudRate cfg.words.setBaudRate rate
  | .setDeviceId id => bytePlan cfg.surface.setDeviceId cfg.words.setDeviceId id
  | .jamProtection flag => integerPlan cfg.surface.jamProtection cfg.words.jamProtection flag
  | .rangeProtection flag => integerPlan cfg.surface.rangeProtection cfg.words.rangeProtection flag
  | .setSpeed speed maxCurrent => targetPlan cfg.surface.setSpeed cfg.words.setSpeed wireSpeed speed maxCurrent
  | .setSpeedPid p i d => gainsPlan cfg.surface.setSpeedPid cfg.words.setSpeedPid p i d
  | .setPosition position maxCurrent =>
    targetPlan cfg.surface.setPosition cfg.words.setPosition wirePosition position maxCurrent
  | .setPositionPid p i d => gainsPlan cfg.surface.setPositionPid cfg.words.setPositionPid p i d
  | .setCurrent current => currentPlan cfg.surface.setCurrent cfg.words.setCurrent current
  | .readMotorStatus => some (.status cfg.surface.readMotorStatus)
  | .readAuxStatus => some (.status cfg.surface.readAuxStatus)
  | .readSpeedPid => some (.status cfg.surface.readSpeedPid)
  | .readPositionPid => some (.status cfg.surface.readPositionPid)
  | .i2cReadRegister a => i2cPlan cfg cfg.surface.i2cReadRegister true a
  | .i2cWriteRegister a => i2cPlan cfg cfg.surface.i2cWriteRegister true a
  | .i2cReadRaw a => i2cPlan cfg cfg.surface.i2cReadRaw false a
  | .i2cWriteRaw a => i2cPlan cfg cfg.surface.i2cWriteRaw false a

/-- A setting exchange: send, and verify the same words against the response code unless the send ended with a fault (44_exchange
R157; 45_scaling_surface R191). `out.ok` is `confirmed`. -/
def settingExchange (code resp : Byte) (w1 w2 w3 : Int) (s : State) : State :=
  (sendSettingState code.toNat w1 w2 w3 s).andThen (verifyState resp.toNat w1 w2 w3)

/-- The expansion carried out (45_scaling_surface R191 to R193). -/
def runPlan (p : Plan) (s : State) : State :=
  match p with
  | .setting code resp w1 w2 w3 => settingExchange code resp w1 w2 w3 s
  | .status code => requestStatusState code.toNat s
  | .i2c code raw => i2cExchangeState code.toNat raw s

/-- A pseudo-operation: its expansion, or a refusal with nothing sent (45_scaling_surface R178; 60_exceptions R207; log 23). -/
def surfaceState (op : SurfaceOp) (s : State) : State :=
  match plan s.cfg op with
  | some p => runPlan p s
  | none => s.refuse

/-- The value of a named I2C field: a number, or the raw data bytes (30_encoding R70). -/
inductive I2cValue where
  | number (n : Nat)
  | bytes (B : List Byte)
deriving DecidableEq, Repr

/-- An unsigned little-endian number: a u8 is its byte, a u16 LE its two bytes with the low one first (30_encoding R70, R71). -/
def leNat (B : List Byte) : Nat :=
  match B with
  | [] => 0
  | b :: rest => b.toNat + 256 * leNat rest

/-- The value that the bytes of a named field stand for: `data` is raw bytes, every other field an unsigned number
(30_encoding R70). That the stop flag, which R70 gives no type, reads as the number of its byte is log 31's. -/
def fieldValue (f : I2cField) (B : List Byte) : I2cValue :=
  match f with
  | .addr | .regLen | .regAddr | .dataLen | .stop | .result => .number (leNat B)
  | .data => .bytes B

/-- The value of a named field of I2C payload bytes, through the overlay of their shape (30_encoding R70; 44_exchange R161;
45_scaling_surface R193). -/
def i2cField (m : I2cFieldMap) (s : Shape) (f : I2cField) (raw : List Byte) : Option I2cValue :=
  match (overlayOf m s).find? (fun slot => slot.field == f) with
  | some slot => (memRead raw slot.offset slot.width).map (fieldValue f)
  | none => none

/-- The value of a named field of the response of the I2C exchange that ended last (45_scaling_surface R193), where that operation
completed (10_state R20). -/
def i2cResultField (f : I2cField) (s : State) : Option I2cValue :=
  match s.readableOut.result, s.readableFrame with
  | some (.raw raw), some F => i2cField s.cfg.i2cMap F.shape f raw
  | _, _ => none

end Sys2Proof.Machine
end

