-- ==== Sys2Proof/Machine/Fetch.lean ====
section
/-! DEFINITION. What one step takes from outside, and what becomes of it (00_scope R8; 30_encoding R50; log 1). -/

namespace Sys2Proof.Machine

/-- A request that is no instruction. A frame that ends too early faults in the codec's pass, as DECODE of the same bytes
does (42_decode R103); an op-select without an operation and operands of the wrong kind are refused (30_encoding R51; 60_exceptions R207). -/
def rejectRequest (r : Request) (e : DecodeError) (s : State) : State :=
  match e, r with
  | .frameTooShort, .frame B => runOp true (decodeBody B) s
  | .frameTooShort, .op _ _ => s.refuse
  | .noSuchOperation _, _ => s.refuse
  | .operandKind _, _ => s.refuse

/-- A request: decoded and executed. -/
def runRequest (r : Request) (s : State) : Host.Outcome State Fault Refusal :=
  match decode r with
  | .ok i => exec i s
  | .error e => .next (rejectRequest r e s)

/-- What the host's transport layer did to the channel; the block is no party to it (20_memory R44; 70_reset_and_hazards R233, R243; log 25). -/
def transportEvent (ev : TransportEvent) (s : State) : State :=
  match ev with
  | .opened => { s with wire := { s.wire with isOpen := true } }
  | .closed => { s with wire := { s.wire with isOpen := false } }
  | .flushed => { s with wire := { s.wire with incoming := [] } }

/-- One input, taken. -/
def runInput (inp : Input) (s : State) : Host.Outcome State Fault Refusal :=
  match inp with
  | .request r => runRequest r s
  | .surface op => .next (surfaceState op s)
  | .transport ev => .next (transportEvent ev s)

/-- The state with the input at the head of the list taken away. -/
def State.dropInput (s : State) : State := { s with inputs := s.inputs.tail }

/-- One step: the next input, or nothing to do while the host has issued nothing. -/
def stepBody (s : State) : Host.Outcome State Fault Refusal :=
  match s.inputs with
  | [] => .next s
  | inp :: _ => runInput inp s.dropInput

/-- The state in which the next input is the request. -/
def State.issue (r : Request) (s : State) : State := { s with inputs := .request r :: s.inputs }

end Sys2Proof.Machine
end

