-- ==== Sys2Proof/Machine/Step.lean ====
section
/-! DEFINITION. The step, and how a word of the opcode table comes before it. -/

namespace Sys2Proof.Machine

/-- One step of the machine (70_reset_and_hazards R257: every operation is one atomic step). -/
def step (s : State) : Host.Outcome State Fault Refusal := stepBody s

/-- The state whose next step takes the request that the table's bits stand for (log 1, log 2). -/
def State.withFetchWord (s : State) (nbits w : Nat) : State := s.issue (tableRequest nbits w)

end Sys2Proof.Machine
end

