-- ==== Sys2Proof/Safety.lean ====
section
/-! DEFINITION. What claims about runs speak of: the legal states, the operations that completed, and the states that differ in
transient registers alone. -/

namespace Sys2Proof.Machine

/-- The last operation completed (60_exceptions R200). -/
def State.completed (s : State) : Prop := s.fault = .none

/-- The last operation faulted: it neither completed nor was refused (60_exceptions R200). -/
def State.faulted (s : State) : Prop := s.fault ≠ .none ∧ s.fault ≠ .refused

/-- A legal state between operations. The sequencer is idle (10_state R21), a fault leaves no result output (R20; 60_exceptions R209).
Where the last operation completed, what its outputs let the host read is in range: the cursor is where a DECODE or an ENCODE ended,
within `MAX_FRAME` (R16, R19), a receive path's frame fills its buffer of at most `MAX_FRAME` bytes (R15; 44_exchange R151), and an empty
result has no fields (44_exchange R155). A Frame that the host may read is well-formed (43_encode R133). Nothing is said of `F`, `pos`,
`TX`, `RX` after a fault or a refusal, nor of what an earlier operation left there (R20, R10). -/
def State.Legal (s : State) : Prop :=
  s.phase = .idle
    ∧ (s.faulted → s.out = Outputs.empty)
    ∧ (s.completed →
        (∀ n, s.out.consumed = some n → 4 ≤ n ∧ n ≤ maxFrame ∧ s.pos = n)
          ∧ (∀ B, s.out.result = some (.bytes B) → 4 ≤ B.length ∧ B.length ≤ maxFrame ∧ s.pos = B.length)
          ∧ (s.out.ok.isSome ∨ s.out.valid.isSome → s.rx.length ≤ maxFrame ∧ s.pos = s.rx.length)
          ∧ (s.out.valid.isSome → s.tx.length ≤ maxFrame)
          ∧ (s.out.valid = some false → s.out.result = none)
          ∧ ∀ F, s.out.result = some (.frame F) → s.readableFrame = some F)
    ∧ ∀ F, s.readableFrame = some F → F.wellFormed = true

/-- Two states with the same parameters, the same persistent state (10_state R10) and the same input to come; their transient
registers, status outputs and fault may differ. -/
def SamePersistent (s₁ s₂ : State) : Prop :=
  s₁.cfg = s₂.cfg ∧ s₁.inputs = s₂.inputs ∧ s₁.targetId = s₂.targetId ∧ s₁.wire = s₂.wire

/-- Two operations have ended alike as far as the host and the next operation can tell: the same persistent state, both sequencers
idle, the same fault, unless refused the same outputs, and the same Frame to read (10_state R10, R19, R20; 44_exchange R149). -/
def SameOutcome (t₁ t₂ : State) : Prop :=
  SamePersistent t₁ t₂ ∧ t₁.phase = .idle ∧ t₂.phase = .idle ∧ t₁.fault = t₂.fault
    ∧ (t₁.fault ≠ .refused → t₁.out = t₂.out) ∧ t₁.readableFrame = t₂.readableFrame

/-! ## Words that statements are written in -/

/-- The frame that carries command `cmd` with shape `sh` behind the header `h` (30_encoding R52, R53). -/
def framedAs (cmd : Byte) (sh : Shape) (h : Header) (p : List Byte) (k : Byte) : Frame :=
  match h.framing with
  | .request => ⟨cmd, none, none, h.deviceId, sh, p, k⟩
  | .response m => ⟨0xAA#8, some m, some cmd, h.deviceId, sh, p, k⟩

/-- The number of bytes a frame with a payload of `size` bytes takes behind the header (30_encoding R52, R53). -/
def framedSize (h : Header) (size : Nat) : Nat :=
  match h.framing with
  | .request => 2 + size + 1
  | .response _ => 4 + size + 1

/-- The header carries the defined second marker byte (10_state R19). -/
def markerOk (h : Header) : Bool := h.framing == .response 0x55#8

/-- The header is a response's (30_encoding R53). -/
def isResponseHeader (h : Header) : Bool := h.framing != .request

/-- The state after a DECODE that ran to the end: `F`, `pos`, the status outputs and the result hold the frame, nothing else has
changed (42_decode R101; 10_state R18, R19). -/
def loaded (F : Frame) (isResponse magicOk known : Bool) (n : Nat) (s : State) : State :=
  { s with
    frame := regOf F
    pos := n
    out :=
      { ok := none
        valid := none
        isResponse := some isResponse
        magicOk := some magicOk
        known := some known
        consumed := some n
        result := some (.frame F) }
    fault := .none
    phase := .idle }

/-- A request frame as it goes on the wire: code, target, payload, and the checksum of these (44_exchange R144; 40_checksum R84). -/
def sealedRequest (cmd target : Byte) (p : List Byte) : List Byte :=
  cmd :: target :: (p ++ [checksum (cmd :: target :: p)])

/-- The state after a send half that completed: the frame built is in `F` with its checksum still 0, its sealed bytes are in `TX`, and
nothing but these, `c`, `pos` and the wire has changed since the operation's start (44_exchange R144). -/
def sent (cmd target : Byte) (sh : Shape) (p : List Byte) (w : Transport) (s : State) : State :=
  { s with
    wire := w
    c := checksum (cmd :: target :: p)
    pos := 2 + p.length + 1
    frame := regOf ⟨cmd, none, none, target, sh, p, 0x00#8⟩
    tx := sealedRequest cmd target p
    out := Outputs.empty
    fault := .none
    phase := .idle }

end Sys2Proof.Machine
end

