-- ==== Sys2Proof/Certificates/Slice0/Obligations.lean ====
section
/-! DEFINITION. The statements about this machine. Each docstring names the rules of spec/ it speaks of and the log entries a clause
rests on. -/

open Sys2Proof Sys2Proof.Machine

/-! ## The checksum unit -/

/-- 40_checksum R82: the round, the step as eight rounds of the XOR, the checksum as steps from 0, and the step as a table of one
argument, with the table's first sixteen entries. -/
def Obligations.ChecksumIsTableDrivenFold : Prop :=
  (∀ c : Byte, crcRound c = (c >>> 1) ^^^ (if c.getLsbD 0 = true then 0x8C#8 else 0x00#8))
    ∧ (∀ c b : Byte, crcStep c b = crcRound^[8] (c ^^^ b))
    ∧ (∀ S : List Byte, checksum S = S.foldl crcStep 0x00#8)
    ∧ (∀ c b : Byte, crcStep c b = crcStep 0x00#8 (c ^^^ b))
    ∧ (List.range 16).map (fun n => crcStep 0x00#8 (BitVec.ofNat 8 n))
        = [0x00#8, 0x5E#8, 0xBC#8, 0xE2#8, 0x61#8, 0x3F#8, 0xDD#8, 0x83#8,
           0xC2#8, 0x9C#8, 0x7E#8, 0x20#8, 0xA3#8, 0xFD#8, 0x1F#8, 0x41#8]

/-- 40_checksum R86 (c): a step is a bijection of the accumulator for each byte, and of the byte for each accumulator. -/
def Obligations.ChecksumStepIsBijective : Prop :=
  (∀ b : Byte, Function.Bijective (fun c : Byte => crcStep c b))
    ∧ (∀ c : Byte, Function.Bijective (fun b : Byte => crcStep c b))

/-- 40_checksum R86 (d): strings of one length that differ in exactly one byte have different checksums. -/
def Obligations.SingleByteChangeChangesChecksum : Prop :=
  ∀ (A B : List Byte) (x y : Byte), x ≠ y → checksum (A ++ x :: B) ≠ checksum (A ++ y :: B)

/-- 40_checksum R86 (e), (f), (g): linear over XOR, blind to leading zero bytes, and 0 over a string with its own checksum
appended. -/
def Obligations.ChecksumIsLinearWithZeroResidue : Prop :=
  (∀ A B : List Byte, A.length = B.length →
      checksum (List.zipWith (fun a b => a ^^^ b) A B) = checksum A ^^^ checksum B)
    ∧ (∀ S : List Byte, checksum (0x00#8 :: S) = checksum S)
    ∧ (∀ S : List Byte, checksum (S ++ [checksum S]) = 0x00#8)

/-- 40_checksum R81; 10_state R14, R18: CHECKSUM completes on every string and writes `c` and the result byte. As every admitted operation
does, it takes the earlier status outputs and results away (10_state R19 as log 8 reads it). -/
def Obligations.ChecksumOpWritesAccumulatorAndResult : Prop :=
  ∀ (s : State) (S : List Byte), s.phase = .idle →
    exec (.checksum S) s
      = .next { s with
          c := S.foldl crcStep 0x00#8
          out := { Outputs.empty with result := some (.byte (S.foldl crcStep 0x00#8)) }
          fault := .none }

/-! ## Frame length and the code tables -/

/-- 41_frame_length R92: the complete table by value, with the counts. -/
def Obligations.FrameLengthTableByValue : Prop :=
  (∀ n : Nat, n < 256 →
      frameLength (BitVec.ofNat 8 n)
        = if n ∈ [0x40, 0x41, 0x42, 0x43] then 4
          else if n ∈ [0x62] then 5
          else if n ∈ [0x71, 0x73] then 6
          else if n ∈ [0x60] then 8
          else if 0x10 ≤ n ∧ n ≤ 0x1E ∨ 0x30 ≤ n ∧ n ≤ 0x34 then 17
          else if n ∈ [0x50, 0x51, 0x52, 0x53] then 20
          else if n ∈ [0x61, 0x63] then 25
          else if n ∈ [0x70, 0x72] then 27
          else 15)
    ∧ ([4, 5, 6, 8, 17, 20, 25, 27, 15].map
        (fun len => ((List.range 256).filter (fun n => frameLength (BitVec.ofNat 8 n) = len)).length))
        = [4, 1, 2, 1, 20, 4, 2, 2, 220]

/-- 41_frame_length R91, R93: FRAME_LENGTH completes on every u8, writes the result, and, as every admitted operation does, takes the
earlier status outputs and results away (10_state R19 as log 8 reads it); outside 0..255 it is refused, with `fault` alone changed
(60_exceptions R200, R207). -/
def Obligations.FrameLengthOpCompletesOrRefuses : Prop :=
  ∀ (s : State) (command : Int), s.phase = .idle →
    (∀ c : Byte, command = c.toNat →
      exec (.frameLength command) s
        = .next { s with
            out := { Outputs.empty with result := some (.length (frameLength c)) }
            fault := .none })
    ∧ (command < 0 ∨ 255 < command →
      exec (.frameLength command) s = .next { s with fault := .refused })

/-- 41_frame_length R94: the length table is header, payload and checksum in the framing of the code's family, and a frame in the
other framing does not have that length. -/
def Obligations.FrameLengthIsLayoutLength : Prop :=
  ∀ c : Byte,
    frameLength c
        = headerLen (isResponseFamily (family c)) + payloadSize (shapeOf c) + 1
      ∧ frameLength c
        ≠ headerLen (!isResponseFamily (family c)) + payloadSize (shapeOf c) + 1

/-- 30_encoding R56, 44_exchange R141: the response code of a request code is the code plus 0x10, in the response family of the same
pair and without a carry; no other code has one. -/
def Obligations.ResponseCodeIsRequestPlusSixteen : Prop :=
  ∀ c : Byte,
    respCode c
        = (match family c with
          | .reqSet => some (c + 0x10#8)
          | .reqCtl => some (c + 0x10#8)
          | .reqRd => some (c + 0x10#8)
          | .reqI2c => some (c + 0x10#8)
          | _ => none)
      ∧ (∀ r, respCode c = some r →
          r.toNat = c.toNat + 0x10 ∧ r.toNat ≤ 0x73
            ∧ (family c = .reqSet → family r = .ackSet)
            ∧ (family c = .reqCtl → family r = .ackCtl)
            ∧ (family c = .reqRd → family r = .rspRd)
            ∧ (family c = .reqI2c → family r = .rspI2c))

/-! ## Decode -/

/-- 42_decode R105: the first byte alone chooses the framing, and the logical command is the third byte of a response, the first byte
of a request. -/
def Obligations.DiscriminatorIsTheFirstByte : Prop :=
  ∀ (strict : Bool) (B : List Byte), (decodePass strict B).fault = .none →
    (flagIsResponse (decodePass strict B).frame = true ↔ B.head? = some 0xAA#8)
      ∧ (B.head? = some 0xAA#8 → regCommand (decodePass strict B).frame = B[2]?)
      ∧ (B.head? ≠ some 0xAA#8 → regCommand (decodePass strict B).frame = B[0]?)

/-- 42_decode R103: with the fallback on, the pass faults exactly when the string is too short for what its own first bytes announce;
else it runs to the end, and the cursor is then at `NEED(B)` (R102, R112). -/
def Obligations.PassFaultsExactlyWhenTooShort : Prop :=
  ∀ B : List Byte,
    ((decodePass false B).fault = .frameTooShort
        ↔ (B.length = 0 ∨ (B.head? = some 0xAA#8 ∧ B.length < 3) ∨ (∃ n, need B = some n ∧ B.length < n)))
      ∧ ((decodePass false B).fault ≠ .frameTooShort →
          (decodePass false B).fault = .none ∧ need B = some (decodePass false B).pos)

/-- 42_decode R111, R112: bytes after the frame do not influence a pass that ran to its end, and no pass depends on more than the first
27 bytes. -/
def Obligations.PassIgnoresBytesAfterTheFrame : Prop :=
  (∀ (strict : Bool) (B X : List Byte), (decodePass strict B).fault = .none →
      decodePass strict (B ++ X) = decodePass strict B)
    ∧ (∀ (strict : Bool) (B : List Byte), decodePass strict (B.take 27) = decodePass strict B)

/-- 42_decode R113: in strict mode the header's too-short test comes first, then the unknown command, then the rest; a code of a
family is treated as without strictness. -/
def Obligations.StrictModeFaultOrder : Prop :=
  ∀ (B : List Byte),
    (logicalCommand B = none → (decodePass true B).fault = .frameTooShort)
      ∧ (∀ cmd, logicalCommand B = some cmd →
          (family cmd ≠ .other → decodePass true B = decodePass false B)
            ∧ (family cmd = .other →
                (decodePass true B).fault
                  = if B.length < headerLen (B.head? == some 0xAA#8) then .frameTooShort
                    else .unknownCommand))

/-- 42_decode R104: `NEED` is `FRAME_LENGTH` exactly on the canonical framings, and differs by 2 on the others. -/
def Obligations.NeedIsFrameLengthOnCanonicalFraming : Prop :=
  ∀ (B : List Byte) (n : Nat) (cmd : Byte), need B = some n → logicalCommand B = some cmd →
    if (B.head? == some 0xAA#8) = isResponseFamily (family cmd) then n = frameLength cmd
    else if B.head? = some 0xAA#8 then n = frameLength cmd + 2
    else n + 2 = frameLength cmd

/-- 42_decode R101, R106: DECODE of a string that begins with a whole frame completes, in either framing, where its code is known or the
machine is not strict, whatever follows the frame; the second marker byte is stored and compared for `magic_ok` alone. -/
def Obligations.DecodeOpLoadsTheFrame : Prop :=
  ∀ (s : State) (m cmd dev k : Byte) (p rest : List Byte), s.phase = .idle →
    p.length = payloadSize (shapeOf cmd) → (s.cfg.strictUnknown = false ∨ family cmd ≠ .other) →
    (cmd ≠ 0xAA#8 →
      exec (.decode (cmd :: dev :: (p ++ k :: rest))) s
        = .next (loaded ⟨cmd, none, none, dev, shapeOf cmd, p, k⟩ false false
            (family cmd != .other) (2 + p.length + 1) s))
    ∧ exec (.decode (0xAA#8 :: m :: cmd :: dev :: (p ++ k :: rest))) s
        = .next (loaded ⟨0xAA#8, some m, some cmd, dev, shapeOf cmd, p, k⟩ true (m == 0x55#8)
            (family cmd != .other) (4 + p.length + 1) s)

/-- 42_decode R103, 60_exceptions R209: DECODE of a string on which the pass faults ends with that fault; no result output has a value,
and the parameters, the target id, the inputs to come, the wire and the idle sequencer are as before. (What `F`, `pos` and the buffers
then hold is not to be claimed, 10_state R20.) -/
def Obligations.DecodeOpFaultDelivery : Prop :=
  ∀ (s : State) (B : List Byte), s.phase = .idle → (decodePass s.cfg.strictUnknown B).fault ≠ .none →
    ∃ t, exec (.decode B) s = .next t
      ∧ t.fault = (decodePass s.cfg.strictUnknown B).fault ∧ t.out = Outputs.empty ∧ t.phase = .idle
      ∧ t.cfg = s.cfg ∧ t.inputs = s.inputs ∧ t.targetId = s.targetId ∧ t.wire = s.wire

/-! ## Encode and the round trips -/

/-- 43_encode R131, 30_encoding R71: ENCODE of a well-formed Frame completes; it writes the bytes in wire order, the payload of a typed
Frame as its fields in the shape's order, 32-bit fields little-endian, the checksum verbatim, into the result, and the cursor; the
earlier status outputs are gone (log 8). -/
def Obligations.EncodeOpWritesFieldsInWireOrder : Prop :=
  ∀ (s : State) (a : FrameArg), s.phase = .idle → a.wellFormed = true →
    ∃ (t : State) (p : List Byte), exec (.encode a) s = .next t
      ∧ p = (match a.payload with
          | .raw b => b
          | .settings x y z => toLe32 (wordOf x) ++ toLe32 (wordOf y) ++ toLe32 (wordOf z)
          | .trigger v => [byteOf v]
          | .motorStatus v q c m e r =>
            toLe32 (wordOf v) ++ toLe32 (wordOf q) ++ toLe32 (wordOf c) ++ [byteOf m, byteOf e, byteOf r]
          | .otherStatus v e n m b x =>
            toLe32 (wordOf v) ++ toLe32 (wordOf e) ++ toLe32 (wordOf n) ++ [byteOf m, byteOf b, byteOf x]
          | .pid kp ki kd b0 b1 b2 =>
            toLe32 (wordOf kp) ++ toLe32 (wordOf ki) ++ toLe32 (wordOf kd) ++ [byteOf b0, byteOf b1, byteOf b2])
      ∧ t.out.result
          = some (.bytes
              (match a.magic2, a.actualCommand with
              | some m, some c => [0xAA#8, byteOf m, byteOf c, byteOf a.deviceId] ++ p ++ [byteOf a.checksum]
              | _, _ => [byteOf a.firstByte, byteOf a.deviceId] ++ p ++ [byteOf a.checksum]))
      ∧ t = { s with
          pos := headerLen (a.firstByte == 0xAA) + payloadSize a.shape + 1
          out := { Outputs.empty with result := t.out.result }
          fault := .none }

/-- 43_encode R133: a Frame whose shape is not its command's, whose payload has the wrong length, whose marker fields are present in a
request or missing in a response, whose typed payload is of another shape (of the same size or not), or one of whose byte or 32-bit
fields does not fit, is refused. -/
def Obligations.EncodeOpRefusesIllFormedFrame : Prop :=
  ∀ (s : State) (a : FrameArg), s.phase = .idle →
    (a.command.map (fun c => shapeOf (byteOf c)) ≠ some a.shape
      ∨ a.payload.toBytes.length ≠ payloadSize a.shape
      ∨ a.magic2.isSome ≠ (a.firstByte == 0xAA)
      ∨ a.actualCommand.isSome ≠ (a.firstByte == 0xAA)
      ∨ (∃ v : Int, (v = a.firstByte ∨ v = a.deviceId ∨ v = a.checksum ∨ a.magic2 = some v ∨ a.actualCommand = some v)
          ∧ (v < 0 ∨ 255 < v))
      ∨ (∃ x y z, a.payload = .settings x y z
          ∧ (a.shape ≠ .settings ∨ ∃ w ∈ [x, y, z], w < -2147483648 ∨ 2147483647 < w))
      ∨ (∃ v, a.payload = .trigger v ∧ (a.shape ≠ .readTrigger ∨ v < 0 ∨ 255 < v))
      ∨ (∃ v q c m t e, a.payload = .motorStatus v q c m t e
          ∧ (a.shape ≠ .motorStatus ∨ (∃ w ∈ [v, q, c], w < -2147483648 ∨ 2147483647 < w) ∨ ∃ w ∈ [m, t, e], w < 0 ∨ 255 < w))
      ∨ (∃ v t e m b x, a.payload = .otherStatus v t e m b x
          ∧ (a.shape ≠ .otherStatus ∨ v < 0 ∨ 4294967295 < v ∨ (∃ w ∈ [t, e], w < -2147483648 ∨ 2147483647 < w)
            ∨ ∃ w ∈ [m, b, x], w < 0 ∨ 255 < w))
      ∨ (∃ kp ki kd b0 b1 b2, a.payload = .pid kp ki kd b0 b1 b2
          ∧ ((a.shape ≠ .pidRbSpeed ∧ a.shape ≠ .pidRbPos)
            ∨ (∃ w ∈ [kp, ki, kd], w < 0 ∨ 4294967295 < w) ∨ ∃ w ∈ [b0, b1, b2], w < 0 ∨ 255 < w))) →
    exec (.encode a) s = .next { s with fault := .refused }

/-- 43_encode R135: for every byte string on which DECODE succeeds, ENCODE of the Frame it returns, in any later idle state, gives back
the bytes of the frame, and the whole string where nothing follows the frame. -/
def Obligations.EncodeAfterDecodeGivesTheBytesBack : Prop :=
  ∀ (s t : State) (B : List Byte), s.phase = .idle → exec (.decode B) s = .next t → t.fault = .none →
    ∃ (F : Frame) (n : Nat), t.out.result = some (.frame F) ∧ need B = some n ∧ n ≤ B.length
      ∧ ∀ u : State, u.phase = .idle →
          ∃ v, exec (.encode F.toArg) u = .next v ∧ v.fault = .none
            ∧ v.out.result = some (.bytes (B.take n))
            ∧ (B.length = n → v.out.result = some (.bytes B))

/-- 42_decode R118: for every well-formed Frame, ENCODE of it completes, and DECODE of the string it gives succeeds, consumes all of that
string and returns the Frame, where the machine is not strict or the code is known. -/
def Obligations.DecodeAfterEncodeGivesTheFrameBack : Prop :=
  ∀ (s u : State) (F : Frame) (cmd : Byte), s.phase = .idle → u.phase = .idle → F.wellFormed = true →
    F.cmd = some cmd → (s.cfg.strictUnknown = false ∨ family cmd ≠ .other) →
    ∃ (v t : State) (B : List Byte), exec (.encode F.toArg) u = .next v ∧ v.out.result = some (.bytes B)
      ∧ exec (.decode B) s = .next t ∧ t.fault = .none
      ∧ t.out.result = some (.frame F) ∧ t.out.consumed = some B.length ∧ regFrame t.frame = some F

/-- Decoding the encoding of a well-formed instruction gives the instruction, every operand at every value. It rests on 30_encoding
R52 to R71 for the wire rows, and for the host operations on R51, R74 with the model's typed operands (log 5). -/
def Obligations.InstructionsSurviveEncodeAndDecode : Prop :=
  ∀ i : Instr, wellFormed i = true → decode (encode i) = .ok i

/-! ## The wire rows -/

/-- A wire row does what DECODE of its bytes does (30_encoding R50, 42_decode R101; the model's reading, log 3). -/
def Obligations.WireRowIsDecodeOfItsBytes : Prop :=
  ∀ (i : Instr) (B : List Byte) (s : State), wellFormed i = true → encode i = .frame B →
    exec i s = exec (.decode B) s

/-- 30_encoding R61, 42_decode R101: the forty rows of the settings, the control settings and their acknowledgements complete in both
framings and load their frame (log 3). -/
def Obligations.SettingsRowsLoadTheirFrame : Prop :=
  ∀ (s : State) (h : Header) (d : SettingsData) (k : Byte), s.phase = .idle →
    ∀ row ∈ ([(0x00#8, .set00), (0x01#8, .set01), (0x02#8, .set02), (0x03#8, .set03), (0x04#8, .set04),
        (0x05#8, .set05), (0x06#8, .set06), (0x07#8, .set07), (0x08#8, .set08), (0x09#8, .set09),
        (0x0A#8, .set0A), (0x0B#8, .set0B), (0x0C#8, .set0C), (0x0D#8, .set0D), (0x0E#8, .set0E),
        (0x20#8, .ctl20), (0x21#8, .ctl21), (0x22#8, .ctl22), (0x23#8, .ctl23), (0x24#8, .ctl24),
        (0x10#8, .ack10), (0x11#8, .ack11), (0x12#8, .ack12), (0x13#8, .ack13), (0x14#8, .ack14),
        (0x15#8, .ack15), (0x16#8, .ack16), (0x17#8, .ack17), (0x18#8, .ack18), (0x19#8, .ack19),
        (0x1A#8, .ack1A), (0x1B#8, .ack1B), (0x1C#8, .ack1C), (0x1D#8, .ack1D), (0x1E#8, .ack1E),
        (0x30#8, .cack30), (0x31#8, .cack31), (0x32#8, .cack32), (0x33#8, .cack33), (0x34#8, .cack34)] :
          List (Byte × (Header → SettingsData → Byte → Instr))),
      exec (row.2 h d k) s
        = .next (loaded (framedAs row.1 .settings h (toLe32 d.data1 ++ toLe32 d.data2 ++ toLe32 d.data3) k)
            (isResponseHeader h) (markerOk h) true (framedSize h 12) s)

/-- 30_encoding R62, 42_decode R101: the status read requests complete in both framings and load their frame (log 3). -/
def Obligations.StatusReadRowsLoadTheirFrame : Prop :=
  ∀ (s : State) (h : Header) (trigger k : Byte), s.phase = .idle →
    ∀ row ∈ ([(0x40#8, .rd40), (0x41#8, .rd41), (0x42#8, .rd42), (0x43#8, .rd43)] :
        List (Byte × (Header → Byte → Byte → Instr))),
      exec (row.2 h trigger k) s
        = .next (loaded (framedAs row.1 .readTrigger h [trigger] k)
            (isResponseHeader h) (markerOk h) true (framedSize h 1) s)

/-- 30_encoding R63 to R65, 42_decode R101: the four readback rows complete in both framings and load their frame, words before
bytes, little-endian (log 3). -/
def Obligations.ReadbackRowsLoadTheirFrame : Prop :=
  ∀ (s : State) (h : Header) (m : MotorData) (o : OtherData) (p : PidData) (k : Byte), s.phase = .idle →
    exec (.rb50 h m k) s
        = .next (loaded (framedAs 0x50#8 .motorStatus h
            (toLe32 m.speed ++ toLe32 m.position ++ toLe32 m.current ++ [m.mode, m.status, m.error]) k)
            (isResponseHeader h) (markerOk h) true (framedSize h 15) s)
      ∧ exec (.rb51 h o k) s
        = .next (loaded (framedAs 0x51#8 .otherStatus h
            (toLe32 o.vin ++ toLe32 o.temperature ++ toLe32 o.encoderCounter
              ++ [o.rgbMode, o.rgbBrightness, o.b2]) k)
            (isResponseHeader h) (markerOk h) true (framedSize h 15) s)
      ∧ exec (.rb52 h p k) s
        = .next (loaded (framedAs 0x52#8 .pidRbSpeed h
            (toLe32 p.kp ++ toLe32 p.ki ++ toLe32 p.kd ++ [p.b0, p.b1, p.b2]) k)
            (isResponseHeader h) (markerOk h) true (framedSize h 15) s)
      ∧ exec (.rb53 h p k) s
        = .next (loaded (framedAs 0x53#8 .pidRbPos h
            (toLe32 p.kp ++ toLe32 p.ki ++ toLe32 p.kd ++ [p.b0, p.b1, p.b2]) k)
            (isResponseHeader h) (markerOk h) true (framedSize h 15) s)

/-- 30_encoding R66 to R68, 42_decode R101: the eight I2C rows complete in both framings on raw runs of their shape's size, and load
the bytes unchanged (log 3). -/
def Obligations.I2cRowsLoadTheirFrame : Prop :=
  ∀ (s : State) (h : Header) (raw : List Byte) (k : Byte), s.phase = .idle →
    ∀ row ∈ ([(0x60#8, .i2cRdregReq, 5, .i2cRdregReq), (0x61#8, .i2cWrregReq, 22, .i2cWrregReq),
        (0x62#8, .i2cRdrawReq, 2, .i2cRdrawReq), (0x63#8, .i2cWrrawReq, 22, .i2cWrrawReq),
        (0x70#8, .i2cRdregResp, 22, .i2cRdregResp), (0x71#8, .i2cWrregResp, 1, .i2cWrregResp),
        (0x72#8, .i2cRdrawResp, 22, .i2cRdrawResp), (0x73#8, .i2cWrrawResp, 1, .i2cWrrawResp)] :
        List (Byte × Shape × Nat × (Header → List Byte → Byte → Instr))),
      raw.length = row.2.2.1 →
      exec (row.2.2.2 h raw k) s
        = .next (loaded (framedAs row.1 row.2.1 h raw k)
            (isResponseHeader h) (markerOk h) true (framedSize h row.2.2.1) s)

/-- 42_decode R109: a frame whose code is in no family completes with the settings shape and `known = 0` where the machine is not
strict, in either framing (log 3). -/
def Obligations.FallbackRowsLoadSettingsShape : Prop :=
  ∀ (s : State) (c m dev : Byte) (d : SettingsData) (k : Byte), s.phase = .idle →
    s.cfg.strictUnknown = false → family c = .other →
    (c ≠ 0xAA#8 →
      exec (.otherReq c dev d k) s
        = .next (loaded ⟨c, none, none, dev, .settings, toLe32 d.data1 ++ toLe32 d.data2 ++ toLe32 d.data3, k⟩
            false false false 15 s))
    ∧ exec (.otherResp m c dev d k) s
        = .next (loaded ⟨0xAA#8, some m, some c, dev, .settings,
            toLe32 d.data1 ++ toLe32 d.data2 ++ toLe32 d.data3, k⟩ true (m == 0x55#8) false 17 s)

/-- 42_decode R109, R113: under `STRICT_UNKNOWN` such a frame faults with `UNKNOWN_COMMAND`, in either framing; no result output has a
value, and the parameters, the target id, the inputs to come, the wire and the idle sequencer are as before (log 3). -/
def Obligations.FallbackRowsFaultWhenStrict : Prop :=
  ∀ (s : State) (c m dev : Byte) (d : SettingsData) (k : Byte), s.phase = .idle →
    s.cfg.strictUnknown = true → family c = .other →
    ∀ i ∈ (if c = 0xAA#8 then [Instr.otherResp m c dev d k]
        else [Instr.otherReq c dev d k, Instr.otherResp m c dev d k]),
      ∃ t, exec i s = .next t
        ∧ t.fault = .unknownCommand ∧ t.out = Outputs.empty ∧ t.phase = .idle
        ∧ t.cfg = s.cfg ∧ t.inputs = s.inputs ∧ t.targetId = s.targetId ∧ t.wire = s.wire

/-! ## The dispatcher -/

/-- 44_exchange R140: SET_TARGET writes `TARGET_ID`, and, as every admitted operation does, takes the earlier status outputs and results
away (10_state R19 as log 8 reads it); it is refused outside 0..255. -/
def Obligations.SetTargetStoresTheId : Prop :=
  ∀ (s : State) (id : Int), s.phase = .idle →
    (∀ b : Byte, id = b.toNat →
      exec (.setTarget id) s
        = .next { s with targetId := some b, out := Outputs.empty, fault := .none })
    ∧ (id < 0 ∨ 255 < id → exec (.setTarget id) s = .next { s with fault := .refused })

/-- 44_exchange R144: SEND_SETTING on a code of `REQ_SET`, `REQ_CTL` or `OTHER` but 0xAA, with s32 words and a target, completes where the
transport takes the write: the sealed 15-byte frame is appended to the outgoing stream in one write. -/
def Obligations.SendSettingWritesTheSealedFrame : Prop :=
  ∀ (s : State) (target cmd : Byte) (a b c : Word), s.phase = .idle → s.targetId = some target →
    cmd ≠ 0xAA#8 → (family cmd = .reqSet ∨ family cmd = .reqCtl ∨ family cmd = .other) →
    s.wire.writeAnswer = .accept →
    exec (.sendSetting cmd.toNat a.toInt b.toInt c.toInt) s
      = .next (sent cmd target .settings (toLe32 a ++ toLe32 b ++ toLe32 c)
          { s.wire.askedWrite with
            outgoing := s.wire.outgoing
              ++ sealedRequest cmd target (toLe32 a ++ toLe32 b ++ toLe32 c) } s)

/-- 44_exchange R163, 60_exceptions R203: where the write raises, SEND_SETTING ends with `TRANSPORT_ERROR`, and what the oracle says of
the frame is on the bus. -/
def Obligations.SendSettingReportsTransportError : Prop :=
  ∀ (s : State) (target cmd : Byte) (a b c : Word) (n : Nat), s.phase = .idle → s.targetId = some target →
    cmd ≠ 0xAA#8 → (family cmd = .reqSet ∨ family cmd = .reqCtl ∨ family cmd = .other) →
    s.wire.writeAnswer = .raise n →
    ∃ t, exec (.sendSetting cmd.toNat a.toInt b.toInt c.toInt) s = .next t
      ∧ t.fault = .transportError ∧ t.out = Outputs.empty ∧ t.phase = .idle
      ∧ t.targetId = s.targetId ∧ t.cfg = s.cfg ∧ t.inputs = s.inputs
      ∧ t.wire
          = { s.wire.askedWrite with
              outgoing := s.wire.outgoing
                ++ (sealedRequest cmd target (toLe32 a ++ toLe32 b ++ toLe32 c)).take n }

/-- 44_exchange R143, 60_exceptions R207: SEND_SETTING without a target id or outside its operand conditions is refused and `fault` alone
changes; nothing is written. Commands and values are unbounded integers by log 5. -/
def Obligations.SendSettingRefusedOutsideConditions : Prop :=
  ∀ (s : State) (command a b c : Int), s.phase = .idle →
    (s.targetId = none
      ∨ command < 0 ∨ 255 < command
      ∨ command = 0xAA
      ∨ (∃ cmd : Byte, command = cmd.toNat
          ∧ family cmd ≠ .reqSet ∧ family cmd ≠ .reqCtl ∧ family cmd ≠ .other)
      ∨ (∃ x ∈ [a, b, c], x < -2147483648 ∨ 2147483647 < x)) →
    exec (.sendSetting command a b c) s = .next { s with fault := .refused }

/-- 44_exchange R148: VERIFY_SETTING_RESPONSE completes where the read returns exactly one marked frame of the settings shape:
`ok` is 1 iff the checksum over bytes 2 to 15 matches and the three values are the expected ones, so 0 for an expected value outside
s32, such as an unclamped wire word (70_reset_and_hazards R248). Neither the command nor the device id nor the second marker byte is
compared (R149). -/
def Obligations.VerifyReportsWhetherTheEchoMatches : Prop :=
  ∀ (s : State) (command m cmd dev k : Byte) (d : SettingsData) (a b c : Int), s.phase = .idle →
    (s.wire.read (frameLength command)).1
      = some (0xAA#8 :: m :: cmd :: dev :: (settingsBytes d ++ [k])) →
    shapeOf cmd = .settings → (s.cfg.strictUnknown = false ∨ family cmd ≠ .other) →
    exec (.verifySettingResponse command.toNat a b c) s
      = .next { s with
          wire := (s.wire.read (frameLength command)).2
          c := checksum (cmd :: dev :: settingsBytes d)
          pos := 17
          frame := regOf ⟨0xAA#8, some m, some cmd, dev, .settings, settingsBytes d, k⟩
          rx := 0xAA#8 :: m :: cmd :: dev :: (settingsBytes d ++ [k])
          out :=
            { Outputs.empty with
              ok := some (k == checksum (cmd :: dev :: settingsBytes d)
                && (d.data1.toInt == a && d.data2.toInt == b && d.data3.toInt == c)) }
          fault := .none }

/-- 44_exchange R162, 60_exceptions R208: the outcomes of VERIFY_SETTING_RESPONSE in the order of the tests, for every answer of the
transport and all expected values; a fault leaves no result output, the bytes read are gone, and the target id stays. A command outside u8 is the one operand it
refuses: that it is an operand "of the wrong type" (60_exceptions R207) is log 5's reading. -/
def Obligations.VerifyOutcomesInOrder : Prop :=
  (∀ (s : State) (command : Byte) (a b c : Int), s.phase = .idle →
      ∃ t, exec (.verifySettingResponse command.toNat a b c) s = .next t
        ∧ t.wire = (s.wire.read (frameLength command)).2
        ∧ t.targetId = s.targetId ∧ t.cfg = s.cfg ∧ t.inputs = s.inputs ∧ t.phase = .idle
        ∧ (match (s.wire.read (frameLength command)).1 with
          | none => t.fault = .transportError ∧ t.out = Outputs.empty
          | some R =>
            if (decodePass s.cfg.strictUnknown R).fault ≠ .none then
              t.fault = (decodePass s.cfg.strictUnknown R).fault ∧ t.out = Outputs.empty
            else if R.head? ≠ some 0xAA#8 then t.fault = .responseUnmarked ∧ t.out = Outputs.empty
            else if (decodePass s.cfg.strictUnknown R).frame.shape ≠ some .settings
                ∨ need R ≠ some R.length then
              t.fault = .responseShape ∧ t.out = Outputs.empty
            else t.fault = .none ∧ t.out.ok.isSome = true ∧ t.rx = R ∧ t.tx = s.tx))
    ∧ (∀ (s : State) (command a b c : Int), command < 0 ∨ 255 < command →
        exec (.verifySettingResponse command a b c) s = .next { s with fault := .refused })

/-- S7 and 40_checksum R86 (d): if a received frame confirms a setting, then no frame that differs from it in one byte from the command
code on confirms it. A damaged second marker byte is not caught (70_reset_and_hazards R251). -/
def Obligations.VerifyNeverConfirmsOneByteDamagedAfterTheMarker : Prop :=
  ∀ (s s' t t' : State) (command : Byte) (a b c : Int) (A B : List Byte) (x y : Byte),
    s.phase = .idle → s'.phase = .idle → x ≠ y → 2 ≤ A.length →
    (s.wire.read (frameLength command)).1 = some (A ++ x :: B) →
    (s'.wire.read (frameLength command)).1 = some (A ++ y :: B) →
    exec (.verifySettingResponse command.toNat a b c) s = .next t →
    exec (.verifySettingResponse command.toNat a b c) s' = .next t' →
    t.out.ok = some true → t'.out.ok ≠ some true

/-- 44_exchange R154: REQUEST_STATUS completes where the transport takes the write and the read returns the readback of the requested
code: the 4-byte request with the trigger byte is on the bus, `valid` says whether the checksum matches, and the descaled fields
(45_scaling_surface R181 to R183) are the result exactly where it does. -/
def Obligations.RequestStatusReturnsTheDescaledReadback : Prop :=
  ∀ (s : State) (target cmd m dev k : Byte) (p : List Byte), s.phase = .idle → s.targetId = some target →
    family cmd = .reqRd → s.wire.writeAnswer = .accept → p.length = 15 →
    (s.wire.read 20).1 = some (0xAA#8 :: m :: (cmd + 0x10#8) :: dev :: (p ++ [k])) →
    exec (.requestStatus cmd.toNat) s
      = .next
          { (sent cmd target .readTrigger [s.cfg.readTrigger]
              ((s.wire.write (sealedRequest cmd target [s.cfg.readTrigger])).2.read 20).2 s) with
            c := checksum ((cmd + 0x10#8) :: dev :: p)
            pos := 20
            frame := regOf ⟨0xAA#8, some m, some (cmd + 0x10#8), dev, shapeOf (cmd + 0x10#8), p, k⟩
            rx := 0xAA#8 :: m :: (cmd + 0x10#8) :: dev :: (p ++ [k])
            out :=
              { Outputs.empty with
                valid := some (k == checksum ((cmd + 0x10#8) :: dev :: p))
                result :=
                  if k = checksum ((cmd + 0x10#8) :: dev :: p) then
                    some
                      (if cmd = 0x40#8 then
                        .motorStatus (((le32 p 0).toInt : Rat) / 100) (((le32 p 4).toInt : Rat) / 100)
                          (((le32 p 8).toInt : Rat) / 100) (p.getD 12 0) (p.getD 13 0) (p.getD 14 0)
                      else if cmd = 0x41#8 then
                        .otherStatus (le32 p 0).toNat (le32 p 4).toInt (le32 p 8).toInt
                          (p.getD 12 0) (p.getD 13 0) (p.getD 14 0)
                      else
                        .pid (((le32 p 0).toNat : Rat) / 100000) (((le32 p 4).toNat : Rat) / 100000)
                          (((le32 p 8).toNat : Rat) / 100000) (p.getD 12 0) (p.getD 13 0) (p.getD 14 0))
                  else none } }

/-- 44_exchange R160: I2C_EXCHANGE completes where the transport takes the write and the read returns the response of the requested
code: the request carries the raw bytes unchanged, `valid` says whether the checksum matches, and `resp_raw` is the payload exactly
where it does. -/
def Obligations.I2cExchangeReturnsTheRawPayload : Prop :=
  ∀ (s : State) (target cmd m dev k : Byte) (raw p : List Byte), s.phase = .idle → s.targetId = some target →
    family cmd = .reqI2c → raw.length = payloadSize (shapeOf cmd) → s.wire.writeAnswer = .accept →
    p.length = payloadSize (shapeOf (cmd + 0x10#8)) →
    (s.wire.read (4 + p.length + 1)).1 = some (0xAA#8 :: m :: (cmd + 0x10#8) :: dev :: (p ++ [k])) →
    exec (.i2cExchange cmd.toNat raw) s
      = .next
          { (sent cmd target (shapeOf cmd) raw
              ((s.wire.write (sealedRequest cmd target raw)).2.read (4 + p.length + 1)).2 s) with
            c := checksum ((cmd + 0x10#8) :: dev :: p)
            pos := 4 + p.length + 1
            frame := regOf ⟨0xAA#8, some m, some (cmd + 0x10#8), dev, shapeOf (cmd + 0x10#8), p, k⟩
            rx := 0xAA#8 :: m :: (cmd + 0x10#8) :: dev :: (p ++ [k])
            out :=
              { Outputs.empty with
                valid := some (k == checksum ((cmd + 0x10#8) :: dev :: p))
                result := if k = checksum ((cmd + 0x10#8) :: dev :: p) then some (.raw p) else none } }

/-- 44_exchange R160, R162, R163; 60_exceptions R208, R212: the faults of REQUEST_STATUS and of I2C_EXCHANGE in the order of the tests,
each with the lengths and shapes of its own code. A fault of the receive half leaves the request sent. -/
def Obligations.RequestAndResponseFaultsInOrder : Prop :=
  ∀ (s : State) (target cmd : Byte) (i : Instr) (p : List Byte), s.phase = .idle → s.targetId = some target →
    (family cmd = .reqRd ∧ i = .requestStatus cmd.toNat ∧ p = [s.cfg.readTrigger]
      ∨ family cmd = .reqI2c ∧ i = .i2cExchange cmd.toNat p ∧ p.length = payloadSize (shapeOf cmd)) →
    ∃ t, exec i s = .next t
      ∧ t.targetId = s.targetId ∧ t.cfg = s.cfg ∧ t.inputs = s.inputs ∧ t.phase = .idle
      ∧ (∀ n, s.wire.writeAnswer = .raise n →
          t.fault = .transportError ∧ t.out = Outputs.empty ∧ t.wire.incoming = s.wire.incoming
            ∧ t.wire.outgoing = s.wire.outgoing ++ (sealedRequest cmd target p).take n)
      ∧ (s.wire.writeAnswer = .accept →
          t.wire.outgoing = s.wire.outgoing ++ sealedRequest cmd target p
            ∧ (match (s.wire.read (frameLength (cmd + 0x10#8))).1 with
              | none => t.fault = .transportError ∧ t.out = Outputs.empty
              | some R =>
                if (decodePass s.cfg.strictUnknown R).fault ≠ .none then
                  t.fault = (decodePass s.cfg.strictUnknown R).fault ∧ t.out = Outputs.empty
                else if R.head? ≠ some 0xAA#8 then t.fault = .responseUnmarked ∧ t.out = Outputs.empty
                else if (decodePass s.cfg.strictUnknown R).frame.shape ≠ some (shapeOf (cmd + 0x10#8))
                    ∨ need R ≠ some R.length then
                  t.fault = .responseShape ∧ t.out = Outputs.empty
                else t.fault = .none ∧ t.out.valid.isSome = true))

/-- 44_exchange R152, R160; 60_exceptions R200, R207: REQUEST_STATUS and I2C_EXCHANGE without a target id or outside their operand conditions
are refused, and `fault` alone changes. -/
def Obligations.StatusAndI2cRefusedOutsideConditions : Prop :=
  ∀ (s : State) (command : Int) (raw : List Byte), s.phase = .idle →
    (s.targetId = none ∨ command < 0x40 ∨ 0x43 < command →
      exec (.requestStatus command) s = .next { s with fault := .refused })
    ∧ (s.targetId = none ∨ command < 0x60 ∨ 0x63 < command
        ∨ raw.length ≠ payloadSize (shapeOf (BitVec.ofInt 8 command)) →
      exec (.i2cExchange command raw) s = .next { s with fault := .refused })

/-! ## Rules of the whole machine -/

/-- 60_exceptions R200: an instruction that ends refused has changed `fault` and nothing else. -/
def Obligations.RefusalChangesFaultAlone : Prop :=
  ∀ (i : Instr) (s t : State), exec i s = .next t → t.fault = .refused → t = { s with fault := .refused }

/-- 10_state R21, 60_exceptions R207: an operation issued while another runs is refused, whatever it is. -/
def Obligations.BusyBlockRefusesEveryOperation : Prop :=
  ∀ (i : Instr) (s : State), s.phase ≠ .idle → exec i s = .next { s with fault := .refused }

/-- 10_state R20, 60_exceptions R209, R211: an instruction that ends faulted leaves no result output, keeps the parameters, the target id,
the transport handle and the inputs to come, and leaves the sequencer idle for the next operation. -/
def Obligations.FaultEndsTheOperationAlone : Prop :=
  ∀ (i : Instr) (s t : State), exec i s = .next t → t.faulted →
    t.out = Outputs.empty ∧ t.phase = .idle ∧ t.targetId = s.targetId ∧ t.wire.isOpen = s.wire.isOpen
      ∧ t.cfg = s.cfg ∧ t.inputs = s.inputs

/-- 20_memory R36, R43, R44: no instruction makes more than one write or more than one read, or opens or closes the transport; what it
writes is appended to the outgoing stream, at most 27 bytes; and one that is no exchange operation leaves the wire as it was. -/
def Obligations.ExchangesMakeAtMostOneWriteAndOneRead : Prop :=
  ∀ (i : Instr) (s t : State), exec i s = .next t →
    t.wire.isOpen = s.wire.isOpen
      ∧ t.wire.writeCalls ≤ s.wire.writeCalls + 1 ∧ t.wire.readCalls ≤ s.wire.readCalls + 1
      ∧ s.wire.outgoing <+: t.wire.outgoing ∧ t.wire.outgoing.length ≤ s.wire.outgoing.length + 27
      ∧ ((∀ c a b d, i ≠ .sendSetting c a b d) → (∀ c a b d, i ≠ .verifySettingResponse c a b d) →
          (∀ c, i ≠ .requestStatus c) → (∀ c raw, i ≠ .i2cExchange c raw) → t.wire = s.wire)

/-- 10_state R12, 70_reset_and_hazards R247: no step but one that takes SET_TARGET changes `TARGET_ID`, a confirmed "set device id" among them. -/
def Obligations.OnlySetTargetChangesTheTarget : Prop :=
  ∀ (s t : State), step s = .next t → t.targetId ≠ s.targetId →
    ∃ (r : Request) (rest : List Input) (id : Int), s.inputs = .request r :: rest
      ∧ decode r = .ok (.setTarget id) ∧ t.targetId = some (byteOf id)

/-- 10_state R10, R11; 44_exchange R149: no operation reads a transient register. From two idle states with the same parameters, target
id, wire and inputs, an instruction ends alike: the same fault, target id and wire, unless refused the same outputs, and the same
Frame to read. So does a step that takes a request or a pseudo-operation of the surface, and every step keeps the two states alike
in their persistent part and idle. -/
def Obligations.NoOperationReadsTransientState : Prop :=
  ∀ (s₁ s₂ t₁ t₂ : State), SamePersistent s₁ s₂ → s₁.phase = .idle → s₂.phase = .idle →
    (∀ i : Instr, exec i s₁ = .next t₁ → exec i s₂ = .next t₂ → SameOutcome t₁ t₂)
      ∧ (step s₁ = .next t₁ → step s₂ = .next t₂ →
          SamePersistent t₁ t₂ ∧ t₁.phase = .idle ∧ t₂.phase = .idle
            ∧ ((∃ r rest, s₁.inputs = .request r :: rest) ∨ (∃ op rest, s₁.inputs = .surface op :: rest) →
                SameOutcome t₁ t₂))

/-- The legal states are closed under every step, of any input (10_state R15, R16, R19, R20, R21; 43_encode R133; 44_exchange R151,
R155; keeping the sequencer idle between steps is log 19's reading). -/
def Obligations.StepKeepsLegality : Prop :=
  ∀ s t : State, s.Legal → step s = .next t → t.Legal

/-- The machine after reset is in a legal state (10_state R24). -/
def Obligations.ResetIsLegal : Prop := State.reset.Legal

/-- 10_state R24: what reset leaves where the rule gives a value: no target id, no Frame, no status output or result, no fault, the
sequencer idle; and `STRICT_UNKNOWN` off (00_scope R5). -/
def Obligations.ResetLeavesTheSpecifiedValues : Prop :=
  State.reset.targetId = none
    ∧ State.reset.frame = ⟨none, none, none, none, none, none, none⟩
    ∧ State.reset.out = ⟨none, none, none, none, none, none, none⟩
    ∧ State.reset.fault = .none
    ∧ State.reset.phase = .idle
    ∧ State.reset.cfg.strictUnknown = false

/-- A step takes the input at the head of the list; where it is a request that decodes to an instruction, the step is the
instruction's execution with that input taken away, and a word of the opcode table put before the step runs in the state itself
(log 1). -/
def Obligations.StepRunsTheDecodedRequest : Prop :=
  (∀ (s : State) (r : Request) (rest : List Input) (i : Instr), s.inputs = .request r :: rest →
      decode r = .ok i → step s = exec i { s with inputs := rest })
    ∧ (∀ (s : State) (nbits w : Nat) (i : Instr), decodeTableWord nbits w = some i →
        step (s.withFetchWord nbits w) = exec i s)
    ∧ (∀ s : State, s.inputs = [] → step s = .next s)

/-- A request that is no instruction, taken by a step (log 1). A frame that ends too early does what DECODE of its bytes does, which
42_decode R103 says of DECODE and log 3 of the frame; an op-select of 9 to 15 is refused whatever its operands (30_encoding R51), and
so is an operation whose operands are not of its number and kinds (60_exceptions R207; log 5). -/
def Obligations.StepOnARequestThatIsNoInstruction : Prop :=
  (∀ (s : State) (B : List Byte) (rest : List Input) (e : DecodeError), s.inputs = .request (.frame B) :: rest →
      decode (.frame B) = .error e → step s = exec (.decode B) { s with inputs := rest })
    ∧ (∀ (s : State) (sel : BitVec 4) (args : List Operand) (rest : List Input),
        s.inputs = .request (.op sel args) :: rest → 9 ≤ sel.toNat →
        step s = .next { s with inputs := rest, fault := .refused })
    ∧ (∀ (s : State) (sel : BitVec 4) (args : List Operand) (rest : List Input) (e : DecodeError),
        s.inputs = .request (.op sel args) :: rest → decode (.op sel args) = .error e →
        step s = .next { s with inputs := rest, fault := .refused })

/-- Words written out from 30_encoding R52, R53, R61, R62, R63, R67, R68, R72 and R51 decode to the instruction they stand for: one of
each of the eight families, one of each fallback row, and a host operation. -/
def Obligations.WrittenOutFramesDecode : Prop :=
  decode (.frame [0x00#8, 0x05#8, 0x01#8, 0#8, 0#8, 0#8, 0#8, 0#8, 0#8, 0#8, 0#8, 0#8, 0#8, 0#8, 0x61#8])
      = .ok (.set00 ⟨.request, 5#8⟩ ⟨1#32, 0#32, 0#32⟩ 0x61#8)
    ∧ decode (.frame [0xAA#8, 0x55#8, 0x10#8, 0x05#8, 0x01#8, 0#8, 0#8, 0#8, 0#8, 0#8, 0#8, 0#8, 0#8, 0#8, 0#8, 0#8,
        0x93#8])
      = .ok (.ack10 ⟨.response 0x55#8, 5#8⟩ ⟨1#32, 0#32, 0#32⟩ 0x93#8)
    ∧ decode (.frame [0x20#8, 0x05#8, 0x10#8, 0x27#8, 0#8, 0#8, 0xCE#8, 0xFF#8, 0xFF#8, 0xFF#8, 0#8, 0#8, 0#8, 0#8, 0x13#8])
      = .ok (.ctl20 ⟨.request, 5#8⟩ ⟨10000#32, BitVec.ofInt 32 (-50), 0#32⟩ 0x13#8)
    ∧ decode (.frame [0xAA#8, 0x55#8, 0x32#8, 0x05#8, 0x10#8, 0x27#8, 0#8, 0#8, 0xCE#8, 0xFF#8, 0xFF#8, 0xFF#8, 0#8, 0#8,
        0#8, 0#8, 0xB9#8])
      = .ok (.cack32 ⟨.response 0x55#8, 5#8⟩ ⟨10000#32, BitVec.ofInt 32 (-50), 0#32⟩ 0xB9#8)
    ∧ decode (.frame [0x40#8, 0x01#8, 0x00#8, 0xF5#8]) = .ok (.rd40 ⟨.request, 1#8⟩ 0#8 0xF5#8)
    ∧ decode (.frame [0xAA#8, 0x55#8, 0x50#8, 0x01#8, 0x10#8, 0x27#8, 0#8, 0#8, 0x5F#8, 0xEC#8, 0xFF#8, 0xFF#8, 0x7B#8, 0#8,
        0#8, 0#8, 0x01#8, 0x02#8, 0x03#8, 0x3D#8])
      = .ok (.rb50 ⟨.response 0x55#8, 1#8⟩ ⟨10000#32, BitVec.ofInt 32 (-5025), 123#32, 1#8, 2#8, 3#8⟩ 0x3D#8)
    ∧ decode (.frame [0x62#8, 0x01#8, 0x50#8, 0x04#8, 0x2A#8]) = .ok (.i2cRdrawReq ⟨.request, 1#8⟩ [0x50#8, 0x04#8] 0x2A#8)
    ∧ decode (.frame [0xAA#8, 0x55#8, 0x71#8, 0x01#8, 0x01#8, 0xDE#8])
      = .ok (.i2cWrregResp ⟨.response 0x55#8, 1#8⟩ [0x01#8] 0xDE#8)
    ∧ decode (.frame [0x0F#8, 0x05#8, 0x01#8, 0#8, 0#8, 0#8, 0x02#8, 0#8, 0#8, 0#8, 0x03#8, 0#8, 0#8, 0#8, 0xD2#8])
      = .ok (.otherReq 0x0F#8 5#8 ⟨1#32, 2#32, 3#32⟩ 0xD2#8)
    ∧ decode (.frame [0xAA#8, 0x54#8, 0x0F#8, 0x05#8, 0x01#8, 0#8, 0#8, 0#8, 0x02#8, 0#8, 0#8, 0#8, 0x03#8, 0#8, 0#8, 0#8,
        0xD2#8])
      = .ok (.otherResp 0x54#8 0x0F#8 5#8 ⟨1#32, 2#32, 3#32⟩ 0xD2#8)
    ∧ decode (.op 5#4 [.int 0, .int 1]) = .ok (.sendSetting 0 1 0 0)

/-! ## The surface layer -/

/-- 45_scaling_surface R172, R173, with R174's clamp and R179's truncation toward zero written out: the x100 words and the gain word of
every rational, the ranges of the x100 words, and the rules' worked examples. That the numbers are exact rationals (R171, D21; log 21)
and that truncation goes toward zero (R179, D22) are the spec's own decisions. -/
def Obligations.ScaledWordsAreClampedAndTruncated : Prop :=
  (∀ x : Rat,
      let trunc : Rat → Int := fun y => if 0 ≤ y then ⌊y⌋ else ⌈y⌉
      wireSpeed x = trunc (max (-21000000) (min x 21000000) * 100)
        ∧ wirePosition x = trunc (max (-21000000) (min x 21000000) * 100)
        ∧ wireCurrent x = trunc (max (-1200) (min x 1200) * 100)
        ∧ wireGain x = trunc (x * 100000)
        ∧ (-2100000000 ≤ wireSpeed x ∧ wireSpeed x ≤ 2100000000)
        ∧ (-2100000000 ≤ wirePosition x ∧ wirePosition x ≤ 2100000000)
        ∧ (-120000 ≤ wireCurrent x ∧ wireCurrent x ≤ 120000))
    ∧ wireSpeed 100 = 10000 ∧ wireSpeed 99999999 = 2100000000 ∧ wireGain (3 / 2) = 150000

/-- 45_scaling_surface R180: wire word to physical value and back is exact. -/
def Obligations.WirePhysicalWireIsExact : Prop :=
  (∀ w : Int, -2100000000 ≤ w → w ≤ 2100000000 →
      wireSpeed ((w : Rat) / 100) = w ∧ wirePosition ((w : Rat) / 100) = w)
    ∧ (∀ w : Int, -120000 ≤ w → w ≤ 120000 → wireCurrent ((w : Rat) / 100) = w)
    ∧ (∀ w : Int, wireGain ((w : Rat) / 100000) = w)

/-- 45_scaling_surface R176: the packed colour word is the sum of the clamped channels, lies in 0 .. 33554431, and its four bytes on the
wire are the clamped r, g, b and mode, in that order; with the rule's worked examples. -/
def Obligations.PackedColourBytesInOrder : Prop :=
  (∀ r g b mode : Int,
      packRgb r g b mode
          = max 0 (min r 255) + max 0 (min g 255) * 256 + max 0 (min b 255) * 65536 + max 0 (min mode 1) * 16777216
        ∧ 0 ≤ packRgb r g b mode ∧ packRgb r g b mode ≤ 33554431
        ∧ toLe32 (wordOf (packRgb r g b mode))
            = [byteOf (max 0 (min r 255)), byteOf (max 0 (min g 255)), byteOf (max 0 (min b 255)),
               byteOf (max 0 (min mode 1))])
    ∧ packRgb 255 0 128 1 = 25166079 ∧ toLe32 (wordOf 25166079) = [0xFF#8, 0x00#8, 0x80#8, 0x01#8]
    ∧ packRgb 300 0 0 0 = 255

/-- 45_scaling_surface R190 rows 1 to 16, R172 to R178, R194: the code and the words each setting sends, clamped, scaled and in order, for
a code of a request family, and its refusal where a word does not fit s32; a non-finite argument, or a non-integer one where an
integer is required, is refused too (R171, R174). The premise `defaultSurfaceWords` is R190's "by order", the default of a parameter
and not a statement of the source (log 22); integers pass unscaled by the same default, and `MOTOR_OFF_VALUE` is `data1` by it, which
R190 does not say (92_eei_decisions D26; log 22). -/
def Obligations.SurfaceWordsAreClampedScaledAndChecked : Prop :=
  ∀ (cfg : Config) (n mode r g b light : Int) (x m p i d : Rat), cfg.words = defaultSurfaceWords →
    (∀ row ∈ ([(.motor true, cfg.surface.motor, 1, 0, 0),
        (.motor false, cfg.surface.motor, cfg.motorOff.toInt, 0, 0),
        (.setMode (.finite n), cfg.surface.setMode, n, 0, 0),
        (.removeProtection (.finite n), cfg.surface.removeProtection, max 0 (min n 255), 0, 0),
        (.commitFlash, cfg.surface.commitFlash, cfg.commitWords.data1.toInt, cfg.commitWords.data2.toInt,
          cfg.commitWords.data3.toInt),
        (.setEncoderCount (.finite n), cfg.surface.setEncoderCount, n, 0, 0),
        (.setButtonMode (.finite n), cfg.surface.setButtonMode, n, 0, 0),
        (.setRgb (.finite r) (.finite g) (.finite b) (.finite mode) (.finite light), cfg.surface.setRgb,
          packRgb r g b mode, max 0 (min light 100), 0),
        (.setBaudRate (.finite n), cfg.surface.setBaudRate, n, 0, 0),
        (.setDeviceId (.finite n), cfg.surface.setDeviceId, max 0 (min n 255), 0, 0),
        (.jamProtection (.finite n), cfg.surface.jamProtection, n, 0, 0),
        (.rangeProtection (.finite n), cfg.surface.rangeProtection, n, 0, 0),
        (.setSpeed (.finite x) (.finite m), cfg.surface.setSpeed, wireSpeed x, wireCurrent m, 0),
        (.setSpeedPid (.finite p) (.finite i) (.finite d), cfg.surface.setSpeedPid, wireGain p, wireGain i, wireGain d),
        (.setPosition (.finite x) (.finite m), cfg.surface.setPosition, wirePosition x, wireCurrent m, 0),
        (.setPositionPid (.finite p) (.finite i) (.finite d), cfg.surface.setPositionPid, wireGain p, wireGain i,
          wireGain d),
        (.setCurrent (.finite m), cfg.surface.setCurrent, wireCurrent m, 0, 0)] :
          List (SurfaceOp × Byte × Int × Int × Int)),
      family row.2.1 = .reqSet ∨ family row.2.1 = .reqCtl →
      plan cfg row.1
        = if ∀ w ∈ [row.2.2.1, row.2.2.2.1, row.2.2.2.2], -2147483648 ≤ w ∧ w ≤ 2147483647 then
            some (.setting row.2.1 (row.2.1 + 0x10#8) row.2.2.1 row.2.2.2.1 row.2.2.2.2)
          else none)
      ∧ (∀ op ∈ [SurfaceOp.setMode, .removeProtection, .setEncoderCount, .setButtonMode, .setBaudRate, .setDeviceId,
            .jamProtection, .rangeProtection, fun q => .setRgb q (.finite g) (.finite b) (.finite mode) (.finite light),
            fun q => .setRgb (.finite r) q (.finite b) (.finite mode) (.finite light),
            fun q => .setRgb (.finite r) (.finite g) q (.finite mode) (.finite light),
            fun q => .setRgb (.finite r) (.finite g) (.finite b) q (.finite light),
            fun q => .setRgb (.finite r) (.finite g) (.finite b) (.finite mode) q],
          plan cfg (op .nonFinite) = none ∧ ∀ q : Rat, (∀ z : Int, (z : Rat) ≠ q) → plan cfg (op (.finite q)) = none)
      ∧ (∀ op ∈ [fun q => SurfaceOp.setSpeed q (.finite m), fun q => .setSpeed (.finite x) q,
            fun q => .setPosition q (.finite m), fun q => .setPosition (.finite x) q, .setCurrent,
            fun q => .setSpeedPid q (.finite i) (.finite d), fun q => .setSpeedPid (.finite p) q (.finite d),
            fun q => .setSpeedPid (.finite p) (.finite i) q, fun q => .setPositionPid q (.finite i) (.finite d),
            fun q => .setPositionPid (.finite p) q (.finite d), fun q => .setPositionPid (.finite p) (.finite i) q],
          plan cfg (op .nonFinite) = none)

/-- 00_scope R5, 45_scaling_surface R190: the use of `data1..3` is a parameter. Whatever it says, each word of a setting is the wire word
of the argument it names, 0 where it names none, or its fixed word; the form of such a parameter is the model's choice (log 22). -/
def Obligations.SurfaceWordUseIsAParameter : Prop :=
  ∀ (cfg : Config) (n mode r g b light : Int) (x m p i d : Rat),
    ∀ row ∈ ([(.motor false, cfg.surface.motor, cfg.words.motorOff, cfg.motorOff.toInt, 0, 0),
        (.setMode (.finite n), cfg.surface.setMode, cfg.words.setMode, n, 0, 0),
        (.setEncoderCount (.finite n), cfg.surface.setEncoderCount, cfg.words.setEncoderCount,
          truncRat (n * cfg.words.encoderScale), 0, 0),
        (.setButtonMode (.finite n), cfg.surface.setButtonMode, cfg.words.setButtonMode, n, 0, 0),
        (.setRgb (.finite r) (.finite g) (.finite b) (.finite mode) (.finite light), cfg.surface.setRgb, cfg.words.setRgb,
          packRgb r g b mode, max 0 (min light 100), 0),
        (.setBaudRate (.finite n), cfg.surface.setBaudRate, cfg.words.setBaudRate, n, 0, 0),
        (.setDeviceId (.finite n), cfg.surface.setDeviceId, cfg.words.setDeviceId, max 0 (min n 255), 0, 0),
        (.jamProtection (.finite n), cfg.surface.jamProtection, cfg.words.jamProtection, n, 0, 0),
        (.rangeProtection (.finite n), cfg.surface.rangeProtection, cfg.words.rangeProtection, n, 0, 0),
        (.setSpeed (.finite x) (.finite m), cfg.surface.setSpeed, cfg.words.setSpeed, wireSpeed x, wireCurrent m, 0),
        (.setSpeedPid (.finite p) (.finite i) (.finite d), cfg.surface.setSpeedPid, cfg.words.setSpeedPid, wireGain p,
          wireGain i, wireGain d),
        (.setPosition (.finite x) (.finite m), cfg.surface.setPosition, cfg.words.setPosition, wirePosition x,
          wireCurrent m, 0),
        (.setPositionPid (.finite p) (.finite i) (.finite d), cfg.surface.setPositionPid, cfg.words.setPositionPid,
          wireGain p, wireGain i, wireGain d),
        (.setCurrent (.finite m), cfg.surface.setCurrent, cfg.words.setCurrent, wireCurrent m, 0, 0)] :
          List (SurfaceOp × Byte × WordUse × Int × Int × Int)),
      family row.2.1 = .reqSet ∨ family row.2.1 = .reqCtl →
      let word : WordSource → Int := fun src =>
        match src with
        | .arg 0 => row.2.2.2.1
        | .arg 1 => row.2.2.2.2.1
        | .arg 2 => row.2.2.2.2.2
        | .arg _ => 0
        | .const w => w.toInt
      plan cfg row.1
        = if ∀ src ∈ [row.2.2.1.data1, row.2.2.1.data2, row.2.2.1.data3],
              -2147483648 ≤ word src ∧ word src ≤ 2147483647 then
            some (.setting row.2.1 (row.2.1 + 0x10#8) (word row.2.2.1.data1) (word row.2.2.1.data2)
              (word row.2.2.1.data3))
          else none

/-- 44_exchange R157, 45_scaling_surface R191: a setting pseudo-operation is two host operations, the send of its words and, unless that
ended with a fault, the verification of the same words against the response code. That one step of the model carries out both is
log 23's choice. A pseudo-operation, whichever it is, that its arguments do not allow (a word that does not fit, a non-finite or non-integer
argument: R171, R174, R178, R193) is refused by the step: nothing is sent and `fault` alone changes (60_exceptions R200, R207). -/
def Obligations.SurfaceSettingSendsThenVerifiesTheSameWords : Prop :=
  (∀ (s u : State) (op : SurfaceOp) (rest : List Input) (code resp : Byte) (w1 w2 w3 : Int),
      s.inputs = .surface op :: rest → plan s.cfg op = some (.setting code resp w1 w2 w3) →
      exec (.sendSetting code.toNat w1 w2 w3) { s with inputs := rest } = .next u →
      respCode code = some resp
        ∧ (u.fault ≠ .none → step s = .next u)
        ∧ (u.fault = .none → step s = exec (.verifySettingResponse resp.toNat w1 w2 w3) u))
    ∧ (∀ (s : State) (op : SurfaceOp) (rest : List Input), s.inputs = .surface op :: rest → plan s.cfg op = none →
        step s = .next { s with inputs := rest, fault := .refused })

/-- 45_scaling_surface R192, R193; 30_encoding R70: with the default overlay at the default codes 0x60 to 0x63, the four I2C
pseudo-operations lay their arguments into the raw bytes of the shape, register address little-endian and unused bytes 0, within
the stated limits, and are refused beyond them (the limits' exact form and the stop byte are log 24's); each is the I2C_EXCHANGE of
its code and bytes; its answer's fields are read through the same overlay, numbers little-endian (the stop flag as the number of its byte is
log 31's), and there are none where the operation gave no result; the four status reads expand to REQUEST_STATUS of their codes. -/
def Obligations.SurfaceReadsExpandToExchanges : Prop :=
  (∀ (cfg : Config) (a : I2cArgs), cfg.i2cMap = defaultFieldMap →
      (if a.addr < 256 ∧ (a.regLen = 1 ∧ a.regAddr < 256 ∨ a.regLen = 2 ∧ a.regAddr < 65536)
          ∧ a.dataLen ≤ 16 ∧ a.data.length ≤ 16 then
        (cfg.surface.i2cReadRegister = 0x60#8 →
            plan cfg (.i2cReadRegister a)
              = some (.i2c 0x60#8 [BitVec.ofNat 8 a.addr, BitVec.ofNat 8 a.regLen, BitVec.ofNat 8 (a.regAddr % 256),
                  BitVec.ofNat 8 (a.regAddr / 256), BitVec.ofNat 8 a.dataLen]))
          ∧ (cfg.surface.i2cWriteRegister = 0x61#8 →
            plan cfg (.i2cWriteRegister a)
              = some (.i2c 0x61#8 ([BitVec.ofNat 8 a.addr, BitVec.ofNat 8 a.regLen, BitVec.ofNat 8 (a.regAddr % 256),
                  BitVec.ofNat 8 (a.regAddr / 256), BitVec.ofNat 8 a.dataLen, if a.stop then 0x01#8 else 0x00#8]
                    ++ a.data ++ List.replicate (16 - a.data.length) 0x00#8)))
      else plan cfg (.i2cReadRegister a) = none ∧ plan cfg (.i2cWriteRegister a) = none)
      ∧ (if a.addr < 256
            ∧ (a.regLen = 0 ∧ a.regAddr = 0 ∨ a.regLen = 1 ∧ a.regAddr < 256 ∨ a.regLen = 2 ∧ a.regAddr < 65536)
            ∧ a.dataLen ≤ 16 ∧ a.data.length ≤ 16 then
          (cfg.surface.i2cReadRaw = 0x62#8 →
              plan cfg (.i2cReadRaw a) = some (.i2c 0x62#8 [BitVec.ofNat 8 a.addr, BitVec.ofNat 8 a.dataLen]))
            ∧ (cfg.surface.i2cWriteRaw = 0x63#8 →
              plan cfg (.i2cWriteRaw a)
                = some (.i2c 0x63#8 ([BitVec.ofNat 8 a.addr, BitVec.ofNat 8 a.regLen, BitVec.ofNat 8 (a.regAddr % 256),
                    BitVec.ofNat 8 (a.regAddr / 256), BitVec.ofNat 8 a.dataLen, if a.stop then 0x01#8 else 0x00#8]
                      ++ a.data ++ List.replicate (16 - a.data.length) 0x00#8)))
        else plan cfg (.i2cReadRaw a) = none ∧ plan cfg (.i2cWriteRaw a) = none))
    ∧ (∀ (s : State) (a : I2cArgs) (rest : List Input),
        ∀ op ∈ [SurfaceOp.i2cReadRegister a, .i2cWriteRegister a, .i2cReadRaw a, .i2cWriteRaw a],
          s.inputs = .surface op :: rest →
          (∀ code raw, plan s.cfg op = some (.i2c code raw) →
            step s = exec (.i2cExchange code.toNat raw) { s with inputs := rest })
          ∧ (plan s.cfg op = none → step s = .next { s with inputs := rest, fault := .refused }))
    ∧ (∀ (s t : State) (cmd : Byte) (raw p : List Byte), s.cfg.i2cMap = defaultFieldMap →
        exec (.i2cExchange cmd.toNat raw) s = .next t → t.fault = .none → t.out.result = some (.raw p) →
        (cmd = 0x60#8 ∨ cmd = 0x62#8 →
          p.length = 22
            ∧ i2cResultField .addr t = some (.number (p.getD 0 0#8).toNat)
            ∧ i2cResultField .regLen t = some (.number (p.getD 1 0#8).toNat)
            ∧ i2cResultField .regAddr t = some (.number ((p.getD 2 0#8).toNat + 256 * (p.getD 3 0#8).toNat))
            ∧ i2cResultField .dataLen t = some (.number (p.getD 4 0#8).toNat)
            ∧ i2cResultField .stop t = some (.number (p.getD 5 0#8).toNat)
            ∧ i2cResultField .data t = some (.bytes (p.drop 6)))
          ∧ (cmd = 0x61#8 ∨ cmd = 0x63#8 →
            p.length = 1 ∧ i2cResultField .result t = some (.number (p.getD 0 0#8).toNat)))
    ∧ (∀ (t : State) (f : I2cField), t.fault ≠ .none ∨ t.out.result = none → i2cResultField f t = none)
    ∧ (∀ (s : State) (rest : List Input),
        ∀ row ∈ [(SurfaceOp.readMotorStatus, s.cfg.surface.readMotorStatus),
            (.readAuxStatus, s.cfg.surface.readAuxStatus), (.readSpeedPid, s.cfg.surface.readSpeedPid),
            (.readPositionPid, s.cfg.surface.readPositionPid)],
          s.inputs = .surface row.1 :: rest →
          step s = exec (.requestStatus row.2.toNat) { s with inputs := rest })

/-! ## The transport -/

/-- 20_memory R40, R42; 10_state R22: a read that returns gives the oldest unread bytes, at most as many as asked for; what it does not
return stays, in order; and it makes one call. -/
def Obligations.ReadTakesTheOldestBytes : Prop :=
  ∀ (w w' : Transport) (n : Nat) (R : List Byte), w.read n = (some R, w') →
    R.length ≤ n ∧ (∃ arrivals, w.incoming ++ arrivals = R ++ w'.incoming)
      ∧ w'.outgoing = w.outgoing ∧ w'.isOpen = w.isOpen ∧ w'.readCalls = w.readCalls + 1

/-- 44_exchange R159, 70_reset_and_hazards R232: on a closed transport an exchange operation that is not refused ends with
`TRANSPORT_ERROR` from its first transport call, and the transport is left as that one call leaves it. What moved before it raised is the
amount of the transport's answer: that prefix of the request is on the bus, or that many bytes have left the incoming stream
(60_exceptions R203; log 14). -/
def Obligations.ClosedTransportEndsExchangesWithTransportError : Prop :=
  ∀ (s : State) (cmd : Byte), s.phase = .idle → s.wire.isOpen = false →
    (∀ a b c : Int, ∃ t arrivals taken, exec (.verifySettingResponse cmd.toNat a b c) s = .next t
        ∧ t.fault = .transportError ∧ t.out = Outputs.empty
        ∧ s.wire.readAnswer = .raise arrivals taken
        ∧ t.wire = (s.wire.read (frameLength cmd)).2
        ∧ t.wire = { s.wire.askedRead with incoming := (s.wire.incoming ++ arrivals).drop taken })
      ∧ ∃ sent, s.wire.writeAnswer = .raise sent ∧ ∀ target, s.targetId = some target →
        (∀ a b c : Word, cmd ≠ 0xAA#8 → (family cmd = .reqSet ∨ family cmd = .reqCtl ∨ family cmd = .other) →
          ∃ t, exec (.sendSetting cmd.toNat a.toInt b.toInt c.toInt) s = .next t
            ∧ t.fault = .transportError ∧ t.out = Outputs.empty
            ∧ t.wire = { s.wire.askedWrite with
                outgoing := s.wire.outgoing
                  ++ (sealedRequest cmd target (toLe32 a ++ toLe32 b ++ toLe32 c)).take sent })
        ∧ (∀ raw : List Byte, family cmd = .reqI2c → raw.length = payloadSize (shapeOf cmd) →
          ∃ t, exec (.i2cExchange cmd.toNat raw) s = .next t
            ∧ t.fault = .transportError ∧ t.out = Outputs.empty
            ∧ t.wire = { s.wire.askedWrite with
                outgoing := s.wire.outgoing ++ (sealedRequest cmd target raw).take sent })
        ∧ (family cmd = .reqRd →
          ∃ t, exec (.requestStatus cmd.toNat) s = .next t
            ∧ t.fault = .transportError ∧ t.out = Outputs.empty
            ∧ t.wire = { s.wire.askedWrite with
                outgoing := s.wire.outgoing ++ (sealedRequest cmd target [s.cfg.readTrigger]).take sent })
end

