-- ==== Sys2Proof/Laws/Bytes.lean ====
section
/-! SUPPORT. Bytes, words and payload views: each conversion and its inverse, the range tests, and the code tables by cases. -/

namespace Sys2Proof

/-! ## Integer operands -/

theorem isU8_iff (v : Int) : isU8 v = true ↔ 0 ≤ v ∧ v ≤ 255 := by simp [isU8]

theorem isS32_iff (v : Int) : isS32 v = true ↔ -2147483648 ≤ v ∧ v ≤ 2147483647 := by simp [isS32]

theorem isU32_iff (v : Int) : isU32 v = true ↔ 0 ≤ v ∧ v ≤ 4294967295 := by simp [isU32]

@[simp] theorem isU8_toNat (b : Byte) : isU8 (b.toNat : Int) = true := by
  have := b.isLt
  rw [isU8_iff]; omega

@[simp] theorem isS32_toInt (w : Word) : isS32 w.toInt = true := by
  have h1 := BitVec.toInt_lt (x := w)
  have h2 := BitVec.le_toInt (x := w)
  rw [isS32_iff]; norm_num at h1 h2; omega

@[simp] theorem byteOf_toNat (b : Byte) : byteOf (b.toNat : Int) = b := by
  simp [byteOf]

@[simp] theorem wordOf_toInt (w : Word) : wordOf w.toInt = w := by
  simp [wordOf]

/-- A byte operand is a byte's value. -/
theorem exists_byte_of_isU8 {v : Int} (h : isU8 v = true) : ∃ b : Byte, v = b.toNat := by
  rw [isU8_iff] at h
  refine ⟨BitVec.ofNat 8 v.toNat, ?_⟩
  rw [BitVec.toNat_ofNat, Nat.mod_eq_of_lt (by omega)]; omega

theorem byteOf_eq_iff {v : Int} {b : Byte} (h : isU8 v = true) : byteOf v = b ↔ v = b.toNat := by
  obtain ⟨c, rfl⟩ := exists_byte_of_isU8 h
  rw [byteOf_toNat]
  constructor
  · rintro rfl; rfl
  · intro e; exact BitVec.eq_of_toNat_eq (by exact_mod_cast e)

/-! ## 32-bit fields -/

@[simp] theorem toLe32_length (x : Word) : (toLe32 x).length = 4 := rfl

theorem join_bytes (x : Word) :
    x.extractLsb' 24 8 ++ x.extractLsb' 16 8 ++ x.extractLsb' 8 8 ++ x.extractLsb' 0 8 = x := by
  refine BitVec.eq_of_getLsbD_eq fun i hi => ?_
  simp only [BitVec.getLsbD_append, BitVec.getLsbD_extractLsb']
  split_ifs with h1 h2 h3
  · simp [h1]
  · rw [decide_eq_true h2, show 8 + (i - 8) = i by omega]; simp
  · rw [decide_eq_true h3, show 16 + (i - 8 - 8) = i by omega]; simp
  · rw [decide_eq_true (show i - 8 - 8 - 8 < 8 by omega), show 24 + (i - 8 - 8 - 8) = i by omega]; simp

/-- A 32-bit field read back from where its four bytes stand. -/
theorem le32_append (A : List Byte) (x : Word) (B : List Byte) : le32 (A ++ (toLe32 x ++ B)) A.length = x := by
  simp [le32, toLe32, List.getD_eq_getElem?_getD, join_bytes]

theorem le32_zero (x : Word) (B : List Byte) : le32 (toLe32 x ++ B) 0 = x := by
  simpa using le32_append [] x B

theorem le32_four (x y : Word) (B : List Byte) : le32 (toLe32 x ++ (toLe32 y ++ B)) 4 = y := by
  simpa using le32_append (toLe32 x) y B

theorem le32_eight (x y z : Word) (B : List Byte) : le32 (toLe32 x ++ (toLe32 y ++ (toLe32 z ++ B))) 8 = z := by
  simpa using le32_append (toLe32 x ++ toLe32 y) z B

/-- Four bytes from their word. -/
theorem toLe32_append (a b c d : Byte) : toLe32 (d ++ c ++ b ++ a) = [a, b, c, d] := by
  simp only [toLe32, List.cons.injEq, and_true]
  refine ⟨?_, ?_, ?_, ?_⟩ <;> refine BitVec.eq_of_getLsbD_eq fun i hi => ?_ <;>
    simp only [BitVec.getLsbD_extractLsb', BitVec.getLsbD_append, hi, decide_true, Bool.true_and] <;>
    split_ifs <;> first | omega | (congr 1; omega)

/-! ## Payload views -/

@[simp] theorem settingsBytes_length (d : SettingsData) : (settingsBytes d).length = 12 := rfl
@[simp] theorem motorBytes_length (d : MotorData) : (motorBytes d).length = 15 := rfl
@[simp] theorem otherBytes_length (d : OtherData) : (otherBytes d).length = 15 := rfl
@[simp] theorem pidBytes_length (d : PidData) : (pidBytes d).length = 15 := rfl

@[simp] theorem settingsView_settingsBytes (d : SettingsData) : settingsView (settingsBytes d) = d := by
  have h8 := le32_eight d.data1 d.data2 d.data3 []
  simp only [List.append_nil] at h8
  simp only [settingsView, settingsBytes, List.append_assoc, le32_zero, le32_four, h8]

@[simp] theorem motorView_motorBytes (d : MotorData) : motorView (motorBytes d) = d := by
  simp only [motorView, motorBytes, List.append_assoc, le32_zero, le32_four, le32_eight]
  rfl

@[simp] theorem otherView_otherBytes (d : OtherData) : otherView (otherBytes d) = d := by
  simp only [otherView, otherBytes, List.append_assoc, le32_zero, le32_four, le32_eight]
  rfl

@[simp] theorem pidView_pidBytes (d : PidData) : pidView (pidBytes d) = d := by
  simp only [pidView, pidBytes, List.append_assoc, le32_zero, le32_four, le32_eight]
  rfl

@[simp] theorem triggerView_singleton (t : Byte) : triggerView [t] = t := rfl

/-! ## The code tables -/

/-- What holds of every number below 256 holds of every byte. -/
theorem byte_cases {P : Byte → Prop} (h : ∀ n : Fin 256, P (BitVec.ofFin n)) (c : Byte) : P c := h c.toFin

theorem magic1_not_known : family magic1 = .other := by decide

theorem payloadSize_pos (s : Shape) : 1 ≤ payloadSize s := by cases s <;> decide

theorem payloadSize_le (s : Shape) : payloadSize s ≤ 22 := by cases s <;> decide

theorem frameLength_le (c : Byte) : frameLength c ≤ maxFrame := by
  revert c; apply byte_cases; decide +kernel

/-- The length table is header, payload and checksum in the framing of the code's family. -/
theorem frameLength_eq (c : Byte) :
    frameLength c = headerLen (isResponseFamily (family c)) + payloadSize (shapeOf c) + 1 := by
  revert c; apply byte_cases; decide +kernel

theorem respCode_family {c r : Byte} (h : respCode c = some r) :
    isRequestFamily (family c) = true ∧ r = c + 0x10#8 := by
  unfold respCode at h
  split at h
  · next hf => exact ⟨hf, (Option.some.inj h).symm⟩
  · cases h

/-- A response code's family is a response family, so its frame length is the response layout's. -/
theorem respCode_length {c r : Byte} (h : respCode c = some r) :
    frameLength r = 4 + payloadSize (shapeOf r) + 1 := by
  obtain ⟨hf, rfl⟩ := respCode_family h
  have key : ∀ c : Byte, isRequestFamily (family c) = true →
      frameLength (c + 0x10#8) = 4 + payloadSize (shapeOf (c + 0x10#8)) + 1 := by
    apply byte_cases; decide +kernel
  exact key c hf

theorem ne_magic1_of_request {c : Byte} (h : isRequestFamily (family c) = true) : c ≠ magic1 := by
  rintro rfl; simp [magic1_not_known, isRequestFamily] at h

theorem shapeOf_other {c : Byte} (h : family c = .other) : shapeOf c = .settings := by
  revert h; revert c; apply byte_cases; decide +kernel

end Sys2Proof
end

