-- ==== Sys2Proof/Laws/Pass.lean ====
section
/-! SUPPORT. The decode pass: what it gives on each layout, and that a pass that ran to its end read one of them. -/

namespace Sys2Proof.Machine

/-- The strict test does not turn the code away. -/
def accepts (strict : Bool) (cmd : Byte) : Prop := strict = false ∨ family cmd ≠ .other

theorem strictTest_false {strict : Bool} {cmd : Byte} (h : accepts strict cmd) :
    (strict && family cmd == .other) = false := by
  rcases h with h | h
  · simp [h]
  · simp [h]

/-! ## The layouts -/

theorem passBody_layout {strict : Bool} {cmd dev k : Byte} {p rest A : List Byte} (F : FrameReg) {pos : Nat}
    (hA : A.length = pos) (hp : p.length = payloadSize (shapeOf cmd)) (ha : accepts strict cmd) :
    passBody strict (A ++ dev :: (p ++ k :: rest)) F pos cmd
      = ⟨{ F with deviceId := some dev, shape := some (shapeOf cmd), payload := some p, checksum := some k },
          pos + 2 + p.length, .none⟩ := by
  subst hA
  have h1 : memByte (A ++ dev :: (p ++ k :: rest)) A.length = some dev := by simp [memByte]
  have h2 : memRead (A ++ dev :: (p ++ k :: rest)) (A.length + 1) (payloadSize (shapeOf cmd)) = some p := by
    rw [← hp, memRead, if_pos (by simp; omega)]
    simp [List.drop_append, List.drop_eq_nil_of_le]
  have h3 : memByte (A ++ dev :: (p ++ k :: rest)) (A.length + 1 + payloadSize (shapeOf cmd)) = some k := by
    rw [← hp, memByte, List.getElem?_append_right (by omega)]
    rw [show A.length + 1 + p.length - A.length = p.length + 1 by omega]
    simp
  simp only [passBody, h1, strictTest_false ha, h2, h3, hp]
  rfl

theorem decodePass_request {strict : Bool} {cmd dev k : Byte} {p rest : List Byte} (hc : cmd ≠ magic1)
    (hp : p.length = payloadSize (shapeOf cmd)) (ha : accepts strict cmd) :
    decodePass strict (cmd :: dev :: (p ++ k :: rest))
      = ⟨regOf ⟨cmd, none, none, dev, shapeOf cmd, p, k⟩, 2 + p.length + 1, .none⟩ := by
  have h0 : memByte (cmd :: dev :: (p ++ k :: rest)) 0 = some cmd := rfl
  have hb := passBody_layout (A := [cmd]) (rest := rest) (dev := dev) (k := k)
    { FrameReg.empty with firstByte := some cmd } rfl hp ha
  rw [List.singleton_append] at hb
  simp only [decodePass, h0, if_neg hc]
  refine hb.trans ?_
  rw [show [cmd].length + 2 + p.length = 2 + p.length + 1 by simp; omega]
  rfl

theorem decodePass_response {strict : Bool} {m cmd dev k : Byte} {p rest : List Byte}
    (hp : p.length = payloadSize (shapeOf cmd)) (ha : accepts strict cmd) :
    decodePass strict (magic1 :: m :: cmd :: dev :: (p ++ k :: rest))
      = ⟨regOf ⟨magic1, some m, some cmd, dev, shapeOf cmd, p, k⟩, 4 + p.length + 1, .none⟩ := by
  have h0 : memByte (magic1 :: m :: cmd :: dev :: (p ++ k :: rest)) 0 = some magic1 := rfl
  have h1 : memByte (magic1 :: m :: cmd :: dev :: (p ++ k :: rest)) 1 = some m := rfl
  have h2 : memByte (magic1 :: m :: cmd :: dev :: (p ++ k :: rest)) 2 = some cmd := rfl
  have hb := passBody_layout (A := [magic1, m, cmd]) (rest := rest) (dev := dev) (k := k)
    { FrameReg.empty with firstByte := some magic1, magic2 := some m, actualCommand := some cmd } rfl hp ha
  simp only [List.cons_append, List.nil_append] at hb
  simp only [decodePass, h0, h1, h2, if_pos]
  refine hb.trans ?_
  rw [show [magic1, m, cmd].length + 2 + p.length = 4 + p.length + 1 by simp; omega]
  rfl

/-! ## What a pass that ran to its end has read -/

theorem memByte_eq_some {B : List Byte} {n : Nat} {b : Byte} (h : memByte B n = some b) :
    ∃ A rest, B = A ++ b :: rest ∧ A.length = n := by
  obtain ⟨hn, hb⟩ := List.getElem?_eq_some_iff.mp h
  refine ⟨B.take n, B.drop (n + 1), ?_, by simp; omega⟩
  rw [← hb, ← List.drop_eq_getElem_cons hn, List.take_append_drop]

theorem passBody_none {strict : Bool} {B : List Byte} {F : FrameReg} {pos : Nat} {cmd : Byte}
    (h : (passBody strict B F pos cmd).fault = .none) :
    ∃ A dev p k rest, B = A ++ dev :: (p ++ k :: rest) ∧ A.length = pos
      ∧ p.length = payloadSize (shapeOf cmd) ∧ accepts strict cmd := by
  unfold passBody at h
  split at h
  · cases h
  next d hd =>
    split at h
    · cases h
    next hs =>
      split at h
      · cases h
      next p hp =>
        split at h
        · cases h
        next k hk =>
          obtain ⟨A, rest, rfl, rfl⟩ := memByte_eq_some hd
          unfold memRead at hp
          split at hp
          swap
          · cases hp
          next hle =>
            have hle' : payloadSize (shapeOf cmd) ≤ rest.length := by simp at hle; omega
            obtain ⟨A', rest', he, hl⟩ := memByte_eq_some hk
            refine ⟨A, d, rest.take (payloadSize (shapeOf cmd)), k, rest', ?_, rfl, by simp; omega, ?_⟩
            · have hr : rest = rest.take (payloadSize (shapeOf cmd)) ++ k :: rest' := by
                have e1 := congrArg (List.drop (A.length + 1)) he
                have e2 : List.drop (A.length + 1) (A' ++ k :: rest')
                    = List.drop (A.length + 1) A' ++ k :: rest' := by
                  rw [List.drop_append_of_le_length (by omega)]
                rw [e2] at e1
                simp only [List.drop_append, List.drop_eq_nil_of_le (Nat.le_succ A.length), List.nil_append,
                  Nat.add_sub_cancel_left, List.drop_succ_cons, List.drop_zero] at e1
                have hlen : (List.drop (A.length + 1) A').length = payloadSize (shapeOf cmd) := by simp; omega
                rw [e1, List.take_append_of_le_length (by omega), List.take_of_length_le (by omega)]
              exact congrArg (fun l => A ++ d :: l) hr
            · by_cases hst : strict = false
              · exact .inl hst
              · right
                intro hf
                apply hs
                simp [hf, Bool.eq_true_of_not_eq_false hst]

theorem decodePass_none {strict : Bool} {B : List Byte} (h : (decodePass strict B).fault = .none) :
    (∃ cmd dev k p rest, B = cmd :: dev :: (p ++ k :: rest) ∧ cmd ≠ magic1
        ∧ p.length = payloadSize (shapeOf cmd) ∧ accepts strict cmd)
      ∨ (∃ m cmd dev k p rest, B = magic1 :: m :: cmd :: dev :: (p ++ k :: rest)
        ∧ p.length = payloadSize (shapeOf cmd) ∧ accepts strict cmd) := by
  unfold decodePass at h
  split at h
  · cases h
  next b0 h0 =>
    split at h
    · next hm =>
      split at h
      · cases h
      next m h1 =>
        split at h
        · cases h
        next cmd h2 =>
          obtain ⟨A, dev, p, k, rest, rfl, hA, hp, ha⟩ := passBody_none h
          match A, hA with
          | [x, y, z], _ =>
            obtain rfl : x = b0 := Option.some.inj h0
            obtain rfl : z = cmd := Option.some.inj h2
            exact .inr ⟨y, z, dev, k, p, rest, by simp [hm], hp, ha⟩
    · next hm =>
      obtain ⟨A, dev, p, k, rest, rfl, hA, hp, ha⟩ := passBody_none h
      match A, hA with
      | [x], _ =>
        obtain rfl : x = b0 := Option.some.inj h0
        exact .inl ⟨x, dev, k, p, rest, rfl, hm, hp, ha⟩

/-! ## Frames and their bytes -/

theorem frameBytes_request (cmd dev : Byte) (sh : Shape) (p : List Byte) (k : Byte) (hc : cmd ≠ magic1) :
    frameBytes ⟨cmd, none, none, dev, sh, p, k⟩ = cmd :: dev :: (p ++ [k]) := by
  simp [frameBytes, Frame.isResponse, hc]

theorem frameBytes_response (m cmd dev : Byte) (sh : Shape) (p : List Byte) (k : Byte) :
    frameBytes ⟨magic1, some m, some cmd, dev, sh, p, k⟩ = magic1 :: m :: cmd :: dev :: (p ++ [k]) := by
  simp [frameBytes, Frame.isResponse]

@[simp] theorem regFrame_regOf (F : Frame) : regFrame (regOf F) = some F := rfl

/-- A well-formed Frame is a request of a code other than the marker, or a response with both optional fields. -/
theorem wellFormed_cases {F : Frame} (h : F.wellFormed = true) :
    (∃ cmd dev p k, F = ⟨cmd, none, none, dev, shapeOf cmd, p, k⟩ ∧ cmd ≠ magic1
        ∧ p.length = payloadSize (shapeOf cmd))
      ∨ (∃ m cmd dev p k, F = ⟨magic1, some m, some cmd, dev, shapeOf cmd, p, k⟩
        ∧ p.length = payloadSize (shapeOf cmd)) := by
  obtain ⟨b, m2, ac, dev, sh, p, k⟩ := F
  simp only [Frame.wellFormed, Bool.and_eq_true, beq_iff_eq] at h
  obtain ⟨⟨⟨hs, hp⟩, hm⟩, hc⟩ := h
  by_cases hb : b = magic1
  · subst hb
    simp only [Frame.isResponse, beq_self_eq_true, Option.isSome_iff_exists] at hm hc
    obtain ⟨m, rfl⟩ := hm
    obtain ⟨c, rfl⟩ := hc
    simp only [Frame.cmd, Frame.isResponse, beq_self_eq_true, if_true, Option.map_some, Option.some.injEq] at hs
    subst hs
    exact .inr ⟨m, c, dev, p, k, rfl, hp⟩
  · have hf : (b == magic1) = false := by simp [hb]
    simp only [Frame.isResponse, hf, Option.isSome_eq_false_iff, Option.isNone_iff_eq_none] at hm hc
    subst hm; subst hc
    simp only [Frame.cmd, Frame.isResponse, hf, Bool.false_eq_true, if_false, Option.map_some, Option.some.injEq] at hs
    subst hs
    exact .inl ⟨b, dev, p, k, rfl, hb, hp⟩

theorem wellFormed_request {cmd dev k : Byte} {p : List Byte} (hc : cmd ≠ magic1)
    (hp : p.length = payloadSize (shapeOf cmd)) :
    Frame.wellFormed ⟨cmd, none, none, dev, shapeOf cmd, p, k⟩ = true := by
  simp [Frame.wellFormed, Frame.cmd, Frame.isResponse, hc, hp]

theorem wellFormed_response {m cmd dev k : Byte} {p : List Byte} (hp : p.length = payloadSize (shapeOf cmd)) :
    Frame.wellFormed ⟨magic1, some m, some cmd, dev, shapeOf cmd, p, k⟩ = true := by
  simp [Frame.wellFormed, Frame.cmd, Frame.isResponse, hp]

/-- The frames `frameWith` builds are well-formed where the payload has its shape's size and a request does not begin with the
marker. -/
theorem wellFormed_frameWith {cmd : Byte} {h : Header} {p : List Byte} {k : Byte}
    (hc : h.framing = .request → cmd ≠ magic1) (hp : p.length = payloadSize (shapeOf cmd)) :
    (frameWith cmd h p k).wellFormed = true := by
  obtain ⟨fr, dev⟩ := h
  cases fr with
  | request => exact wellFormed_request (hc rfl) hp
  | response m => exact wellFormed_response hp

/-- One pass over a well-formed Frame's bytes gives the Frame back, whatever follows it. -/
theorem decodePass_frameBytes {strict : Bool} {F : Frame} (rest : List Byte) (hw : F.wellFormed = true)
    (ha : ∀ c, F.cmd = some c → accepts strict c) :
    decodePass strict (frameBytes F ++ rest) = ⟨regOf F, (frameBytes F).length, .none⟩ := by
  rcases wellFormed_cases hw with ⟨cmd, dev, p, k, rfl, hc, hp⟩ | ⟨m, cmd, dev, p, k, rfl, hp⟩
  · have hk : accepts strict cmd := ha cmd (by simp [Frame.cmd, Frame.isResponse, hc])
    rw [frameBytes_request _ _ _ _ _ hc]
    simp only [List.cons_append, List.append_assoc, List.nil_append]
    rw [decodePass_request hc hp hk]
    simp; omega
  · have hk : accepts strict cmd := ha cmd (by simp [Frame.cmd, Frame.isResponse])
    rw [frameBytes_response]
    simp only [List.cons_append, List.append_assoc, List.nil_append]
    rw [decodePass_response hp hk]
    simp; omega

/-- A pass that ran to its end read a well-formed Frame, which the string begins with. -/
theorem decodePass_ok {strict : Bool} {B : List Byte} (h : (decodePass strict B).fault = .none) :
    ∃ F rest, B = frameBytes F ++ rest ∧ F.wellFormed = true ∧ (∀ c, F.cmd = some c → accepts strict c)
      ∧ decodePass strict B = ⟨regOf F, (frameBytes F).length, .none⟩ := by
  rcases decodePass_none h with ⟨cmd, dev, k, p, rest, rfl, hc, hp, ha⟩ | ⟨m, cmd, dev, k, p, rest, rfl, hp, ha⟩
  · have e := frameBytes_request cmd dev (shapeOf cmd) p k hc
    have hw := wellFormed_request (dev := dev) (k := k) hc hp
    have ha' : ∀ c, Frame.cmd ⟨cmd, none, none, dev, shapeOf cmd, p, k⟩ = some c → accepts strict c := by
      intro c h'
      simp only [Frame.cmd, Frame.isResponse, beq_iff_eq, hc, if_false, Option.some.injEq] at h'
      exact h' ▸ ha
    have eB : cmd :: dev :: (p ++ k :: rest) = frameBytes ⟨cmd, none, none, dev, shapeOf cmd, p, k⟩ ++ rest := by
      rw [e]; simp
    exact ⟨_, rest, eB, hw, ha', by rw [eB]; exact decodePass_frameBytes rest hw ha'⟩
  · have e := frameBytes_response m cmd dev (shapeOf cmd) p k
    have hw := wellFormed_response (m := m) (dev := dev) (k := k) hp
    have ha' : ∀ c, Frame.cmd ⟨magic1, some m, some cmd, dev, shapeOf cmd, p, k⟩ = some c → accepts strict c := by
      intro c h'
      simp only [Frame.cmd, Frame.isResponse, beq_self_eq_true, if_true, Option.some.injEq] at h'
      exact h' ▸ ha
    have eB : magic1 :: m :: cmd :: dev :: (p ++ k :: rest)
        = frameBytes ⟨magic1, some m, some cmd, dev, shapeOf cmd, p, k⟩ ++ rest := by
      rw [e]; simp
    exact ⟨_, rest, eB, hw, ha', by rw [eB]; exact decodePass_frameBytes rest hw ha'⟩

/-- A well-formed Frame has 4 to 27 bytes. -/
theorem frameBytes_length {F : Frame} (h : F.wellFormed = true) :
    (frameBytes F).length = headerLen F.isResponse + payloadSize F.shape + 1 := by
  rcases wellFormed_cases h with ⟨cmd, dev, p, k, rfl, hc, hp⟩ | ⟨m, cmd, dev, p, k, rfl, hp⟩
  · rw [frameBytes_request _ _ _ _ _ hc]; simp [Frame.isResponse, hc, headerLen, hp]; omega
  · rw [frameBytes_response]; simp [Frame.isResponse, headerLen, hp]; omega

theorem frameBytes_length_bounds {F : Frame} (h : F.wellFormed = true) :
    4 ≤ (frameBytes F).length ∧ (frameBytes F).length ≤ maxFrame := by
  rw [frameBytes_length h]
  have h1 := payloadSize_pos F.shape
  have h2 := payloadSize_le F.shape
  cases F.isResponse <;> simp [headerLen, maxFrame] <;> omega

/-! ## Where a pass that faulted stands -/

/-- Wherever a pass ends, the cursor is at most 27; and the register holds a whole Frame only where the pass ran to its end. -/
theorem decodePass_fault {strict : Bool} {B : List Byte} (h : (decodePass strict B).fault ≠ .none) :
    (decodePass strict B).pos ≤ maxFrame ∧ regFrame (decodePass strict B).frame = none
      ∧ (decodePass strict B).fault ≠ .refused := by
  have hb : ∀ (F : FrameReg) (pos : Nat) (cmd : Byte), pos ≤ 3 → regFrame F = none → F.checksum = none →
      (passBody strict B F pos cmd).fault ≠ .none →
      (passBody strict B F pos cmd).pos ≤ maxFrame ∧ regFrame (passBody strict B F pos cmd).frame = none
        ∧ (passBody strict B F pos cmd).fault ≠ .refused := by
    intro F pos cmd hpos hF hk hf
    have := payloadSize_le (shapeOf cmd)
    have hz : ∀ (G : FrameReg), G.checksum = none → regFrame G = none := by
      intro G hG
      unfold regFrame
      rw [hG]
      split <;> simp_all
    unfold passBody at hf ⊢
    split
    · exact ⟨by simp [maxFrame]; omega, hF, by simp⟩
    · split
      · exact ⟨by simp [maxFrame]; omega, hz _ hk, by simp⟩
      · split
        · exact ⟨by simp [maxFrame]; omega, hz _ hk, by simp⟩
        · split
          · exact ⟨by simp [maxFrame]; omega, hz _ hk, by simp⟩
          · simp_all
  unfold decodePass at h ⊢
  split
  · exact ⟨by simp, rfl, by simp⟩
  · next b0 h0 =>
    simp only [h0] at h
    split
    · next hm =>
      simp only [hm, if_true] at h
      split
      · exact ⟨by simp [maxFrame], rfl, by simp⟩
      · next m h1 =>
        simp only [h1] at h
        split
        · exact ⟨by simp [maxFrame], rfl, by simp⟩
        · next cmd h2 =>
          simp only [h2] at h
          subst hm
          exact hb _ 3 cmd (by omega) rfl rfl h
    · next hm =>
      simp only [hm, if_false] at h
      exact hb _ 1 b0 (by omega) rfl rfl h

end Sys2Proof.Machine
end

