-- ==== Sys2Proof/Laws/State.lean ====
section
/-! SUPPORT. One lemma per field per update of State. -/

namespace Sys2Proof.Machine

/-! ### State.refuse -/

@[simp] theorem State.refuse_cfg (s : State) : s.refuse.cfg = s.cfg := rfl
@[simp] theorem State.refuse_inputs (s : State) : s.refuse.inputs = s.inputs := rfl
@[simp] theorem State.refuse_targetId (s : State) : s.refuse.targetId = s.targetId := rfl
@[simp] theorem State.refuse_wire (s : State) : s.refuse.wire = s.wire := rfl
@[simp] theorem State.refuse_c (s : State) : s.refuse.c = s.c := rfl
@[simp] theorem State.refuse_pos (s : State) : s.refuse.pos = s.pos := rfl
@[simp] theorem State.refuse_frame (s : State) : s.refuse.frame = s.frame := rfl
@[simp] theorem State.refuse_tx (s : State) : s.refuse.tx = s.tx := rfl
@[simp] theorem State.refuse_rx (s : State) : s.refuse.rx = s.rx := rfl
@[simp] theorem State.refuse_out (s : State) : s.refuse.out = s.out := rfl
@[simp] theorem State.refuse_fault (s : State) : s.refuse.fault = .refused := rfl
@[simp] theorem State.refuse_phase (s : State) : s.refuse.phase = s.phase := rfl

/-! ### State.start -/

@[simp] theorem State.start_cfg (s : State) : s.start.cfg = s.cfg := rfl
@[simp] theorem State.start_inputs (s : State) : s.start.inputs = s.inputs := rfl
@[simp] theorem State.start_targetId (s : State) : s.start.targetId = s.targetId := rfl
@[simp] theorem State.start_wire (s : State) : s.start.wire = s.wire := rfl
@[simp] theorem State.start_c (s : State) : s.start.c = s.c := rfl
@[simp] theorem State.start_pos (s : State) : s.start.pos = s.pos := rfl
@[simp] theorem State.start_frame (s : State) : s.start.frame = s.frame := rfl
@[simp] theorem State.start_tx (s : State) : s.start.tx = s.tx := rfl
@[simp] theorem State.start_rx (s : State) : s.start.rx = s.rx := rfl
@[simp] theorem State.start_out (s : State) : s.start.out = Outputs.empty := rfl
@[simp] theorem State.start_fault (s : State) : s.start.fault = .none := rfl
@[simp] theorem State.start_phase (s : State) : s.start.phase = s.phase := rfl

/-! ### State.deliver -/

@[simp] theorem State.deliver_cfg (k : FaultKind) (s : State) : (s.deliver k).cfg = s.cfg := rfl
@[simp] theorem State.deliver_inputs (k : FaultKind) (s : State) : (s.deliver k).inputs = s.inputs := rfl
@[simp] theorem State.deliver_targetId (k : FaultKind) (s : State) : (s.deliver k).targetId = s.targetId := rfl
@[simp] theorem State.deliver_wire (k : FaultKind) (s : State) : (s.deliver k).wire = s.wire := rfl
@[simp] theorem State.deliver_c (k : FaultKind) (s : State) : (s.deliver k).c = s.c := rfl
@[simp] theorem State.deliver_pos (k : FaultKind) (s : State) : (s.deliver k).pos = s.pos := rfl
@[simp] theorem State.deliver_frame (k : FaultKind) (s : State) : (s.deliver k).frame = s.frame := rfl
@[simp] theorem State.deliver_tx (k : FaultKind) (s : State) : (s.deliver k).tx = s.tx := rfl
@[simp] theorem State.deliver_rx (k : FaultKind) (s : State) : (s.deliver k).rx = s.rx := rfl
@[simp] theorem State.deliver_out (k : FaultKind) (s : State) : (s.deliver k).out = s.out := rfl
@[simp] theorem State.deliver_fault (k : FaultKind) (s : State) : (s.deliver k).fault = k := rfl
@[simp] theorem State.deliver_phase (k : FaultKind) (s : State) : (s.deliver k).phase = .done := rfl

/-! ### State.finish -/

@[simp] theorem State.finish_cfg (s : State) : s.finish.cfg = s.cfg := rfl
@[simp] theorem State.finish_inputs (s : State) : s.finish.inputs = s.inputs := rfl
@[simp] theorem State.finish_targetId (s : State) : s.finish.targetId = s.targetId := rfl
@[simp] theorem State.finish_wire (s : State) : s.finish.wire = s.wire := rfl
@[simp] theorem State.finish_c (s : State) : s.finish.c = s.c := rfl
@[simp] theorem State.finish_pos (s : State) : s.finish.pos = s.pos := rfl
@[simp] theorem State.finish_frame (s : State) : s.finish.frame = s.frame := rfl
@[simp] theorem State.finish_tx (s : State) : s.finish.tx = s.tx := rfl
@[simp] theorem State.finish_rx (s : State) : s.finish.rx = s.rx := rfl
@[simp] theorem State.finish_out (s : State) : s.finish.out = s.out := rfl
@[simp] theorem State.finish_fault (s : State) : s.finish.fault = s.fault := rfl
@[simp] theorem State.finish_phase (s : State) : s.finish.phase = .idle := rfl

/-! ### State.dropInput -/

@[simp] theorem State.dropInput_cfg (s : State) : s.dropInput.cfg = s.cfg := rfl
@[simp] theorem State.dropInput_inputs (s : State) : s.dropInput.inputs = s.inputs.tail := rfl
@[simp] theorem State.dropInput_targetId (s : State) : s.dropInput.targetId = s.targetId := rfl
@[simp] theorem State.dropInput_wire (s : State) : s.dropInput.wire = s.wire := rfl
@[simp] theorem State.dropInput_c (s : State) : s.dropInput.c = s.c := rfl
@[simp] theorem State.dropInput_pos (s : State) : s.dropInput.pos = s.pos := rfl
@[simp] theorem State.dropInput_frame (s : State) : s.dropInput.frame = s.frame := rfl
@[simp] theorem State.dropInput_tx (s : State) : s.dropInput.tx = s.tx := rfl
@[simp] theorem State.dropInput_rx (s : State) : s.dropInput.rx = s.rx := rfl
@[simp] theorem State.dropInput_out (s : State) : s.dropInput.out = s.out := rfl
@[simp] theorem State.dropInput_fault (s : State) : s.dropInput.fault = s.fault := rfl
@[simp] theorem State.dropInput_phase (s : State) : s.dropInput.phase = s.phase := rfl

/-! ### State.issue -/

@[simp] theorem State.issue_cfg (r : Request) (s : State) : (s.issue r).cfg = s.cfg := rfl
@[simp] theorem State.issue_inputs (r : Request) (s : State) : (s.issue r).inputs = .request r :: s.inputs := rfl
@[simp] theorem State.issue_targetId (r : Request) (s : State) : (s.issue r).targetId = s.targetId := rfl
@[simp] theorem State.issue_wire (r : Request) (s : State) : (s.issue r).wire = s.wire := rfl
@[simp] theorem State.issue_c (r : Request) (s : State) : (s.issue r).c = s.c := rfl
@[simp] theorem State.issue_pos (r : Request) (s : State) : (s.issue r).pos = s.pos := rfl
@[simp] theorem State.issue_frame (r : Request) (s : State) : (s.issue r).frame = s.frame := rfl
@[simp] theorem State.issue_tx (r : Request) (s : State) : (s.issue r).tx = s.tx := rfl
@[simp] theorem State.issue_rx (r : Request) (s : State) : (s.issue r).rx = s.rx := rfl
@[simp] theorem State.issue_out (r : Request) (s : State) : (s.issue r).out = s.out := rfl
@[simp] theorem State.issue_fault (r : Request) (s : State) : (s.issue r).fault = s.fault := rfl
@[simp] theorem State.issue_phase (r : Request) (s : State) : (s.issue r).phase = s.phase := rfl

/-! ### State.setResult -/

@[simp] theorem State.setResult_cfg (r : Result) (s : State) : (s.setResult r).cfg = s.cfg := rfl
@[simp] theorem State.setResult_inputs (r : Result) (s : State) : (s.setResult r).inputs = s.inputs := rfl
@[simp] theorem State.setResult_targetId (r : Result) (s : State) : (s.setResult r).targetId = s.targetId := rfl
@[simp] theorem State.setResult_wire (r : Result) (s : State) : (s.setResult r).wire = s.wire := rfl
@[simp] theorem State.setResult_c (r : Result) (s : State) : (s.setResult r).c = s.c := rfl
@[simp] theorem State.setResult_pos (r : Result) (s : State) : (s.setResult r).pos = s.pos := rfl
@[simp] theorem State.setResult_frame (r : Result) (s : State) : (s.setResult r).frame = s.frame := rfl
@[simp] theorem State.setResult_tx (r : Result) (s : State) : (s.setResult r).tx = s.tx := rfl
@[simp] theorem State.setResult_rx (r : Result) (s : State) : (s.setResult r).rx = s.rx := rfl
@[simp] theorem State.setResult_out (r : Result) (s : State) : (s.setResult r).out = { s.out with result := some r } := rfl
@[simp] theorem State.setResult_fault (r : Result) (s : State) : (s.setResult r).fault = s.fault := rfl
@[simp] theorem State.setResult_phase (r : Result) (s : State) : (s.setResult r).phase = s.phase := rfl

/-! ### setTargetBody -/

@[simp] theorem setTargetBody_cfg (id : Byte) (s : State) : (setTargetBody id s).cfg = s.cfg := rfl
@[simp] theorem setTargetBody_inputs (id : Byte) (s : State) : (setTargetBody id s).inputs = s.inputs := rfl
@[simp] theorem setTargetBody_targetId (id : Byte) (s : State) : (setTargetBody id s).targetId = some id := rfl
@[simp] theorem setTargetBody_wire (id : Byte) (s : State) : (setTargetBody id s).wire = s.wire := rfl
@[simp] theorem setTargetBody_c (id : Byte) (s : State) : (setTargetBody id s).c = s.c := rfl
@[simp] theorem setTargetBody_pos (id : Byte) (s : State) : (setTargetBody id s).pos = s.pos := rfl
@[simp] theorem setTargetBody_frame (id : Byte) (s : State) : (setTargetBody id s).frame = s.frame := rfl
@[simp] theorem setTargetBody_tx (id : Byte) (s : State) : (setTargetBody id s).tx = s.tx := rfl
@[simp] theorem setTargetBody_rx (id : Byte) (s : State) : (setTargetBody id s).rx = s.rx := rfl
@[simp] theorem setTargetBody_out (id : Byte) (s : State) : (setTargetBody id s).out = s.out := rfl
@[simp] theorem setTargetBody_fault (id : Byte) (s : State) : (setTargetBody id s).fault = s.fault := rfl
@[simp] theorem setTargetBody_phase (id : Byte) (s : State) : (setTargetBody id s).phase = s.phase := rfl

/-! ### buildPhase -/

@[simp] theorem buildPhase_cfg (F : Frame) (s : State) : (buildPhase F s).cfg = s.cfg := rfl
@[simp] theorem buildPhase_inputs (F : Frame) (s : State) : (buildPhase F s).inputs = s.inputs := rfl
@[simp] theorem buildPhase_targetId (F : Frame) (s : State) : (buildPhase F s).targetId = s.targetId := rfl
@[simp] theorem buildPhase_wire (F : Frame) (s : State) : (buildPhase F s).wire = s.wire := rfl
@[simp] theorem buildPhase_c (F : Frame) (s : State) : (buildPhase F s).c = frameChecksum (frameBytes F) := rfl
@[simp] theorem buildPhase_pos (F : Frame) (s : State) : (buildPhase F s).pos = (frameBytes F).length := rfl
@[simp] theorem buildPhase_frame (F : Frame) (s : State) : (buildPhase F s).frame = regOf F := rfl
@[simp] theorem buildPhase_tx (F : Frame) (s : State) : (buildPhase F s).tx = sealBytes F := rfl
@[simp] theorem buildPhase_rx (F : Frame) (s : State) : (buildPhase F s).rx = s.rx := rfl
@[simp] theorem buildPhase_out (F : Frame) (s : State) : (buildPhase F s).out = s.out := rfl
@[simp] theorem buildPhase_fault (F : Frame) (s : State) : (buildPhase F s).fault = s.fault := rfl
@[simp] theorem buildPhase_phase (F : Frame) (s : State) : (buildPhase F s).phase = .build := rfl

/-! ### settlePhase -/

@[simp] theorem settlePhase_cfg (n : Nat) (s : State) : (settlePhase n s).cfg = s.cfg := rfl
@[simp] theorem settlePhase_inputs (n : Nat) (s : State) : (settlePhase n s).inputs = s.inputs := rfl
@[simp] theorem settlePhase_targetId (n : Nat) (s : State) : (settlePhase n s).targetId = s.targetId := rfl
@[simp] theorem settlePhase_wire (n : Nat) (s : State) : (settlePhase n s).wire = s.wire := rfl
@[simp] theorem settlePhase_c (n : Nat) (s : State) : (settlePhase n s).c = s.c := rfl
@[simp] theorem settlePhase_pos (n : Nat) (s : State) : (settlePhase n s).pos = s.pos := rfl
@[simp] theorem settlePhase_frame (n : Nat) (s : State) : (settlePhase n s).frame = s.frame := rfl
@[simp] theorem settlePhase_tx (n : Nat) (s : State) : (settlePhase n s).tx = s.tx := rfl
@[simp] theorem settlePhase_rx (n : Nat) (s : State) : (settlePhase n s).rx = s.rx := rfl
@[simp] theorem settlePhase_out (n : Nat) (s : State) : (settlePhase n s).out = s.out := rfl
@[simp] theorem settlePhase_fault (n : Nat) (s : State) : (settlePhase n s).fault = s.fault := rfl
@[simp] theorem settlePhase_phase (n : Nat) (s : State) : (settlePhase n s).phase = .settle := rfl

/-! ### sumPhase -/

@[simp] theorem sumPhase_cfg (s : State) : (sumPhase s).cfg = s.cfg := rfl
@[simp] theorem sumPhase_inputs (s : State) : (sumPhase s).inputs = s.inputs := rfl
@[simp] theorem sumPhase_targetId (s : State) : (sumPhase s).targetId = s.targetId := rfl
@[simp] theorem sumPhase_wire (s : State) : (sumPhase s).wire = s.wire := rfl
@[simp] theorem sumPhase_c (s : State) : (sumPhase s).c = checksum (verifyRange s.rx) := rfl
@[simp] theorem sumPhase_pos (s : State) : (sumPhase s).pos = s.pos := rfl
@[simp] theorem sumPhase_frame (s : State) : (sumPhase s).frame = s.frame := rfl
@[simp] theorem sumPhase_tx (s : State) : (sumPhase s).tx = s.tx := rfl
@[simp] theorem sumPhase_rx (s : State) : (sumPhase s).rx = s.rx := rfl
@[simp] theorem sumPhase_out (s : State) : (sumPhase s).out = s.out := rfl
@[simp] theorem sumPhase_fault (s : State) : (sumPhase s).fault = s.fault := rfl
@[simp] theorem sumPhase_phase (s : State) : (sumPhase s).phase = s.phase := rfl

end Sys2Proof.Machine
end

