-- ==== Sys2Proof/Laws/Ops.lean ====
section
/-! SUPPORT. One lemma per shared operation that says everything it can do, and the ways an instruction can run. -/

namespace Sys2Proof.Machine

/-! ## Start and refusal -/

theorem runOp_admitted {body : State → State} {s : State} (h : s.phase = .idle) :
    runOp true body s = (body s.start).finish := by simp [runOp, h]

theorem runOp_refused {admitted : Bool} {body : State → State} {s : State}
    (h : s.phase ≠ .idle ∨ admitted = false) : runOp admitted body s = s.refuse := by
  rw [runOp, if_neg]
  rcases h with h | h <;> simp [h]

theorem runOp_cases (admitted : Bool) (body : State → State) (s : State) :
    runOp admitted body s = s.refuse
      ∨ (s.phase = .idle ∧ admitted = true ∧ runOp admitted body s = (body s.start).finish) := by
  by_cases h : s.phase = .idle ∧ admitted = true
  · exact .inr ⟨h.1, h.2, by rw [runOp, if_pos h]⟩
  · exact .inl (by rw [runOp, if_neg h])

theorem andThen_none {s : State} {f : State → State} (h : s.fault = .none) : s.andThen f = f s := if_pos h

theorem andThen_fault {s : State} {f : State → State} (h : s.fault ≠ .none) : s.andThen f = s := if_neg h

/-! ## The transport -/

theorem write_accept {w : Transport} (S : List Byte) (h : w.writeAnswer = .accept) :
    w.write S = (true, { w.askedWrite with outgoing := w.outgoing ++ S }) := by
  simp only [Transport.write, h]

theorem write_raise {w : Transport} (S : List Byte) {n : Nat} (h : w.writeAnswer = .raise n) :
    w.write S = (false, { w.askedWrite with outgoing := w.outgoing ++ S.take n }) := by
  simp only [Transport.write, h]

/-- A write appends a prefix of its string, the whole of it where it is taken, and makes one call. -/
theorem write_spec (w : Transport) (S : List Byte) :
    ∃ n, (w.write S).2.outgoing = w.outgoing ++ S.take n ∧ ((w.write S).1 = true → S.take n = S)
      ∧ (w.write S).2.writeCalls = w.writeCalls + 1 ∧ (w.write S).2.readCalls = w.readCalls
      ∧ (w.write S).2.incoming = w.incoming ∧ (w.write S).2.isOpen = w.isOpen
      ∧ (w.write S).2.readAnswers = w.readAnswers := by
  cases h : w.writeAnswer with
  | accept =>
    rw [write_accept S h]
    exact ⟨S.length, by simp, by simp, rfl, rfl, rfl, rfl, rfl⟩
  | raise n =>
    rw [write_raise S h]
    exact ⟨n, rfl, by simp, rfl, rfl, rfl, rfl, rfl⟩

/-- A read returns the oldest bytes of the stream, at most as many as asked for, and makes one call. -/
theorem read_spec (w : Transport) (n : Nat) :
    (w.read n).2.outgoing = w.outgoing ∧ (w.read n).2.isOpen = w.isOpen
      ∧ (w.read n).2.writeCalls = w.writeCalls ∧ (w.read n).2.readCalls = w.readCalls + 1
      ∧ (w.read n).2.writeAnswers = w.writeAnswers
      ∧ ∀ R, (w.read n).1 = some R → R.length ≤ n
          ∧ ∃ arrivals, w.incoming ++ arrivals = R ++ (w.read n).2.incoming := by
  cases h : w.readAnswer with
  | deliver arrivals count =>
    simp only [Transport.read, h]
    refine ⟨rfl, rfl, rfl, rfl, rfl, ?_⟩
    rintro R hR
    obtain rfl := Option.some.inj hR
    exact ⟨by simp, arrivals, (List.take_append_drop _ _).symm⟩
  | raise arrivals taken =>
    simp only [Transport.read, h]
    exact ⟨rfl, rfl, rfl, rfl, rfl, by simp⟩

theorem read_raise {w : Transport} (n : Nat) {arrivals : List Byte} {taken : Nat}
    (h : w.readAnswer = .raise arrivals taken) :
    w.read n = (none, { w.askedRead with incoming := (w.incoming ++ arrivals).drop taken }) := by
  simp only [Transport.read, h]

/-- A closed port raises on a write, after any number of bytes. -/
theorem writeAnswer_closed {w : Transport} (h : w.isOpen = false) : ∃ sent, w.writeAnswer = .raise sent := by
  unfold Transport.writeAnswer
  cases w.nextWrite <;> simp [h]

/-- A closed port raises on a read, after any number of bytes. -/
theorem readAnswer_closed {w : Transport} (h : w.isOpen = false) :
    ∃ arrivals taken, w.readAnswer = .raise arrivals taken := by
  unfold Transport.readAnswer
  cases w.nextRead <;> simp [h]

/-- What a read returns depends on the incoming stream, the readiness, the scripted read answers and the read counter alone, none of
which a write changes. -/
theorem read_after_write (w : Transport) (S : List Byte) (n : Nat) : ((w.write S).2.read n).1 = (w.read n).1 := by
  have key : ∀ w' : Transport, w'.incoming = w.incoming → w'.isOpen = w.isOpen → w'.readAnswers = w.readAnswers →
      w'.readCalls = w.readCalls → (w'.read n).1 = (w.read n).1 := by
    intro w' hi ho ha hc
    have e : w'.readAnswer = w.readAnswer := by simp only [Transport.readAnswer, Transport.nextRead, ho, ha, hc]
    simp only [Transport.read, e, hi]
    cases w.readAnswer <;> rfl
  obtain ⟨k, -, -, -, h1, h2, h3, h4⟩ := write_spec w S
  exact key _ h2 h3 h4 h1

/-! ## DECODE -/

theorem decodeBody_ok {B : List Byte} {s : State} {F : Frame} {n : Nat} (h0 : s.fault = .none)
    (h : decodePass s.cfg.strictUnknown B = ⟨regOf F, n, .none⟩) :
    decodeBody B s = { s with
      frame := regOf F
      pos := n
      out :=
        { s.out with
          isResponse := some (flagIsResponse (regOf F))
          magicOk := some (flagMagicOk (regOf F))
          known := some (flagKnown (regOf F))
          consumed := some n
          result := some (.frame F) } } := by
  simp only [decodeBody, State.runPass, h, if_true]
  rw [andThen_none (by simpa using h0)]
  rfl

theorem decodeBody_fault {B : List Byte} {s : State} (h : (decodePass s.cfg.strictUnknown B).fault ≠ .none) :
    decodeBody B s = { s with
      frame := (decodePass s.cfg.strictUnknown B).frame
      pos := (decodePass s.cfg.strictUnknown B).pos
      fault := (decodePass s.cfg.strictUnknown B).fault
      phase := .done } := by
  simp only [decodeBody, State.runPass, h, if_false]
  rw [andThen_fault (by simpa using h)]
  rfl

/-- DECODE from start to end, where the pass runs to its end. -/
theorem runDecode_ok {B : List Byte} {s : State} {F : Frame} {n : Nat} (hi : s.phase = .idle)
    (h : decodePass s.cfg.strictUnknown B = ⟨regOf F, n, .none⟩) :
    runOp true (decodeBody B) s = { s with
      frame := regOf F
      pos := n
      out :=
        { Outputs.empty with
          isResponse := some (flagIsResponse (regOf F))
          magicOk := some (flagMagicOk (regOf F))
          known := some (flagKnown (regOf F))
          consumed := some n
          result := some (.frame F) }
      fault := .none
      phase := .idle } := by
  rw [runOp_admitted hi, decodeBody_ok (s := s.start) rfl h]
  rfl

/-- DECODE from start to end, where the pass faults. -/
theorem runDecode_fault {B : List Byte} {s : State} (hi : s.phase = .idle)
    (h : (decodePass s.cfg.strictUnknown B).fault ≠ .none) :
    runOp true (decodeBody B) s = { s with
      frame := (decodePass s.cfg.strictUnknown B).frame
      pos := (decodePass s.cfg.strictUnknown B).pos
      out := Outputs.empty
      fault := (decodePass s.cfg.strictUnknown B).fault
      phase := .idle } := by
  rw [runOp_admitted hi, decodeBody_fault (s := s.start) h]
  rfl

/-! ## The halves of an exchange -/

/-- The send half: the frame built and sealed, written, and, where the write was taken, the settling phase. -/
theorem sendHalf_eq (F : Frame) {s : State} (h0 : s.fault = .none) :
    sendHalf F s
      = if (s.wire.write (sealBytes F)).1 then
          { buildPhase F s with wire := (s.wire.write (sealBytes F)).2, phase := .settle }
        else
          { buildPhase F s with
            wire := (s.wire.write (sealBytes F)).2
            phase := .done
            fault := .transportError } := by
  have e : (buildPhase F s).andThen writePhase = writePhase (buildPhase F s) := andThen_none h0
  rw [sendHalf, e]
  by_cases hw : (s.wire.write (sealBytes F)).1 = true
  · rw [if_pos hw]
    have ew : writePhase (buildPhase F s)
        = { buildPhase F s with wire := (s.wire.write (sealBytes F)).2, phase := .write } := by
      simp only [writePhase, buildPhase_wire, buildPhase_tx, hw, if_true]
    rw [ew]
    exact andThen_none h0
  · rw [if_neg hw]
    have ew : writePhase (buildPhase F s)
        = State.deliver .transportError
            { buildPhase F s with wire := (s.wire.write (sealBytes F)).2, phase := .write } := by
      simp only [writePhase, buildPhase_wire, buildPhase_tx, hw]
      rfl
    rw [ew, andThen_fault (by simp)]
    rfl

/-- The receive half up to the verdict, by the answer of the read and then in the order of the tests. -/
theorem receiveHalf_eq (len : Nat) (expected : Shape) {s : State} (h0 : s.fault = .none) :
    receiveHalf len expected s
      = match (s.wire.read len).1 with
        | none => { s with wire := (s.wire.read len).2, phase := .done, fault := .transportError }
        | some R =>
          let p := decodePass s.cfg.strictUnknown R
          let u := { s with wire := (s.wire.read len).2, rx := R, frame := p.frame, pos := p.pos }
          if p.fault ≠ .none then { u with phase := .done, fault := p.fault }
          else if R.head? ≠ some magic1 then { u with phase := .done, fault := .responseUnmarked }
          else if p.frame.shape ≠ some expected ∨ p.pos ≠ R.length then
            { u with phase := .done, fault := .responseShape }
          else { u with phase := .check, c := checksum (verifyRange R) } := by
  cases hr : (s.wire.read len).1 with
  | none =>
    have er : readPhase len s
        = State.deliver .transportError { s with wire := (s.wire.read len).2, phase := .read } := by
      simp only [readPhase, hr]
    rw [receiveHalf, er]
    rw [andThen_fault (f := decodePhase) (by simp), andThen_fault (f := checkMarks expected) (by simp),
      andThen_fault (f := sumPhase) (by simp)]
    rfl
  | some R =>
    have er : readPhase len s = { s with wire := (s.wire.read len).2, phase := .read, rx := R } := by
      simp only [readPhase, hr]
    rw [receiveHalf, er, andThen_none (f := decodePhase) (by exact h0)]
    by_cases hf : (decodePass s.cfg.strictUnknown R).fault = .none
    · have ed : decodePhase { s with wire := (s.wire.read len).2, phase := .read, rx := R }
          = { s with
              wire := (s.wire.read len).2
              phase := .decode
              rx := R
              frame := (decodePass s.cfg.strictUnknown R).frame
              pos := (decodePass s.cfg.strictUnknown R).pos } := by
        simp only [decodePhase, State.runPass, hf, if_true]
      rw [ed, andThen_none (f := checkMarks expected) (by exact h0)]
      simp only [hf, ne_eq, not_true_eq_false, if_false, checkMarks]
      by_cases h1 : R.head? = some magic1
      · simp only [h1, not_true_eq_false, if_false]
        by_cases h2 : ¬(decodePass s.cfg.strictUnknown R).frame.shape = some expected
            ∨ ¬(decodePass s.cfg.strictUnknown R).pos = R.length
        · rw [if_pos h2, if_pos h2, andThen_fault (by simp)]; rfl
        · rw [if_neg h2, if_neg h2]; exact andThen_none h0
      · simp only [h1, not_false_eq_true, if_true]
        rw [andThen_fault (by simp)]; rfl
    · have ed : decodePhase { s with wire := (s.wire.read len).2, phase := .read, rx := R }
          = State.deliver (decodePass s.cfg.strictUnknown R).fault
            { s with
              wire := (s.wire.read len).2
              phase := .decode
              rx := R
              frame := (decodePass s.cfg.strictUnknown R).frame
              pos := (decodePass s.cfg.strictUnknown R).pos } := by
        simp only [decodePhase, State.runPass, hf, if_false]
      rw [ed, andThen_fault (f := checkMarks expected) (by exact hf), andThen_fault (f := sumPhase) (by exact hf)]
      simp only [ne_eq, hf, not_false_eq_true, if_true]
      rfl

/-! ## What the halves of an exchange leave -/

/-- A pass leaves the cursor in its range, and a whole Frame in the register only if it is well-formed. -/
theorem decodePass_post (strict : Bool) (B : List Byte) :
    (decodePass strict B).pos ≤ maxFrame ∧ (decodePass strict B).fault ≠ .refused
      ∧ ∀ F, regFrame (decodePass strict B).frame = some F → F.wellFormed = true := by
  by_cases h : (decodePass strict B).fault = .none
  · obtain ⟨F, rest, -, hw, -, e⟩ := decodePass_ok h
    rw [e]
    refine ⟨(frameBytes_length_bounds hw).2, by simp, ?_⟩
    intro G hG
    rw [regFrame_regOf] at hG
    exact Option.some.inj hG ▸ hw
  · obtain ⟨h1, h2, h3⟩ := decodePass_fault h
    exact ⟨h1, h3, by simp [h2]⟩

/-- The send half changes the wire by one write of the sealed bytes, and `F`, `TX`, `pos`, `c`; it faults exactly where the write
raises. -/
theorem sendHalf_post (F : Frame) {s : State} (h0 : s.fault = .none) :
    (sendHalf F s).wire = (s.wire.write (sealBytes F)).2
      ∧ (sendHalf F s).fault = (if (s.wire.write (sealBytes F)).1 then .none else .transportError)
      ∧ (sendHalf F s).frame = regOf F ∧ (sendHalf F s).tx = sealBytes F
      ∧ (sendHalf F s).pos = (frameBytes F).length ∧ (sendHalf F s).c = frameChecksum (frameBytes F)
      ∧ (sendHalf F s).cfg = s.cfg ∧ (sendHalf F s).inputs = s.inputs ∧ (sendHalf F s).targetId = s.targetId
      ∧ (sendHalf F s).rx = s.rx ∧ (sendHalf F s).out = s.out := by
  rw [sendHalf_eq F h0]
  split
  · exact ⟨rfl, h0, rfl, rfl, rfl, rfl, rfl, rfl, rfl, rfl, rfl⟩
  · exact ⟨rfl, rfl, rfl, rfl, rfl, rfl, rfl, rfl, rfl, rfl, rfl⟩

/-- The receive half changes the wire by one read, and `RX`, `F`, `pos`, `c`; whatever its outcome, the cursor and the buffer stay in
their ranges and a whole Frame in the register is well-formed. -/
theorem receiveHalf_post (len : Nat) (expected : Shape) {s : State} (h0 : s.fault = .none) :
    (receiveHalf len expected s).wire = (s.wire.read len).2
      ∧ (receiveHalf len expected s).fault ≠ .refused
      ∧ (receiveHalf len expected s).cfg = s.cfg ∧ (receiveHalf len expected s).inputs = s.inputs
      ∧ (receiveHalf len expected s).targetId = s.targetId ∧ (receiveHalf len expected s).tx = s.tx
      ∧ (receiveHalf len expected s).out = s.out
      ∧ ((receiveHalf len expected s).rx = s.rx ∨ (receiveHalf len expected s).rx.length ≤ len)
      ∧ ((receiveHalf len expected s).frame = s.frame ∧ (receiveHalf len expected s).pos = s.pos
        ∨ (receiveHalf len expected s).pos ≤ maxFrame
          ∧ ∀ F, regFrame (receiveHalf len expected s).frame = some F → F.wellFormed = true) := by
  rw [receiveHalf_eq len expected h0]
  cases hr : (s.wire.read len).1 with
  | none => exact ⟨rfl, by simp, rfl, rfl, rfl, rfl, rfl, .inl rfl, .inl ⟨rfl, rfl⟩⟩
  | some R =>
    have hl : R.length ≤ len := ((read_spec s.wire len).2.2.2.2.2 R hr).1
    obtain ⟨h1, h2, h3⟩ := decodePass_post s.cfg.strictUnknown R
    simp only
    split
    · exact ⟨rfl, h2, rfl, rfl, rfl, rfl, rfl, .inr hl, .inr ⟨h1, h3⟩⟩
    · split
      · exact ⟨rfl, by simp, rfl, rfl, rfl, rfl, rfl, .inr hl, .inr ⟨h1, h3⟩⟩
      · split
        · exact ⟨rfl, by simp, rfl, rfl, rfl, rfl, rfl, .inr hl, .inr ⟨h1, h3⟩⟩
        · exact ⟨rfl, by simp [h0], rfl, rfl, rfl, rfl, rfl, .inr hl, .inr ⟨h1, h3⟩⟩

/-- A receive half that completed: the buffer holds what the read returned and begins with the marker, the decoded frame fills it, is
well-formed and of the expected shape, and the checksum has been recomputed over it. -/
theorem receiveHalf_completed {len : Nat} {expected : Shape} {s : State} (h0 : s.fault = .none)
    (h : (receiveHalf len expected s).fault = .none) :
    ∃ (R : List Byte) (F : Frame), (s.wire.read len).1 = some R ∧ R.length ≤ len ∧ F.wellFormed = true
      ∧ F.shape = expected ∧ R = frameBytes F ∧ R.head? = some magic1
      ∧ receiveHalf len expected s
        = { s with
            wire := (s.wire.read len).2
            rx := R
            frame := regOf F
            pos := R.length
            c := checksum (verifyRange R)
            phase := .check } := by
  rw [receiveHalf_eq len expected h0] at h ⊢
  cases hr : (s.wire.read len).1 with
  | none => simp [hr] at h
  | some R =>
    have hl : R.length ≤ len := ((read_spec s.wire len).2.2.2.2.2 R hr).1
    simp only [hr] at h ⊢
    by_cases hf : (decodePass s.cfg.strictUnknown R).fault = .none
    · obtain ⟨F, rest, e, hw, -, hd⟩ := decodePass_ok hf
      rw [hd] at h ⊢
      simp only [ne_eq, not_true_eq_false, if_false] at h ⊢
      split at h
      · cases h
      · split at h
        · cases h
        · next h1 h2 =>
          simp only [not_or, not_not] at h2
          rw [if_neg h1, if_neg (by simpa using h2)]
          have hrest : rest = [] := by
            have := congrArg List.length e
            rw [List.length_append, ← h2.2] at this
            exact List.length_eq_zero_iff.mp (by omega)
          subst hrest
          rw [List.append_nil] at e
          exact ⟨R, F, rfl, hl, hw, Option.some.inj h2.1, e, not_not.mp h1, by rw [e]⟩
    · simp only [ne_eq, hf, not_false_eq_true, if_true] at h

end Sys2Proof.Machine
end

