-- ==== Sys2Proof/Laws/PerInstr.lean ====
section
/-! SUPPORT. The family of statements about every instruction as syntax: a well-formed wire row is encoded in exactly as many bytes
as its header, payload and checksum take, and a host operation in an operation request. -/

namespace Sys2Proof.Laws.EncodedSize

open Sys2Proof Sys2Proof.Machine

/-- A well-formed instruction is encoded as a frame of the layout's length, 4 to 27 bytes, with a well-formed Frame behind it, or as a
host operation's request (30_encoding R51 to R54; 41_frame_length R95). -/
def Statement (i : Instr) : Prop :=
  wellFormed i = true →
    (∃ F, wireFrame i = some F ∧ encode i = .frame (frameBytes F) ∧ F.wellFormed = true
        ∧ (frameBytes F).length = headerLen F.isResponse + payloadSize F.shape + 1
        ∧ 4 ≤ (frameBytes F).length ∧ (frameBytes F).length ≤ maxFrame)
      ∨ (∃ sel args, wireFrame i = none ∧ encode i = .op sel args ∧ sel.toNat < 9)

/-- What a wire row's Frame gives, once it is known to be well-formed. -/
theorem of_frame {i : Instr} {F : Frame} (h : wireFrame i = some F) (hw : F.wellFormed = true) : Statement i :=
  fun _ => .inl ⟨F, h, by simp only [encode, h], hw, frameBytes_length hw, frameBytes_length_bounds hw⟩

/-- What a host operation's request gives. -/
theorem of_request {i : Instr} {sel : BitVec 4} {args : List Operand} (h : wireFrame i = none)
    (hr : hostRequest i = some (.op sel args)) (hs : sel.toNat < 9) : Statement i :=
  fun _ => .inr ⟨sel, args, h, by simp only [encode, h, hr, Option.getD_some], hs⟩

theorem set00 (h : Header) (d : SettingsData) (k : Byte) : Statement (.set00 h d k) :=
  of_frame rfl (wellFormed_frameWith (fun _ => by decide) rfl)

theorem set01 (h : Header) (d : SettingsData) (k : Byte) : Statement (.set01 h d k) :=
  of_frame rfl (wellFormed_frameWith (fun _ => by decide) rfl)

theorem set02 (h : Header) (d : SettingsData) (k : Byte) : Statement (.set02 h d k) :=
  of_frame rfl (wellFormed_frameWith (fun _ => by decide) rfl)

theorem set03 (h : Header) (d : SettingsData) (k : Byte) : Statement (.set03 h d k) :=
  of_frame rfl (wellFormed_frameWith (fun _ => by decide) rfl)

theorem set04 (h : Header) (d : SettingsData) (k : Byte) : Statement (.set04 h d k) :=
  of_frame rfl (wellFormed_frameWith (fun _ => by decide) rfl)

theorem set05 (h : Header) (d : SettingsData) (k : Byte) : Statement (.set05 h d k) :=
  of_frame rfl (wellFormed_frameWith (fun _ => by decide) rfl)

theorem set06 (h : Header) (d : SettingsData) (k : Byte) : Statement (.set06 h d k) :=
  of_frame rfl (wellFormed_frameWith (fun _ => by decide) rfl)

theorem set07 (h : Header) (d : SettingsData) (k : Byte) : Statement (.set07 h d k) :=
  of_frame rfl (wellFormed_frameWith (fun _ => by decide) rfl)

theorem set08 (h : Header) (d : SettingsData) (k : Byte) : Statement (.set08 h d k) :=
  of_frame rfl (wellFormed_frameWith (fun _ => by decide) rfl)

theorem set09 (h : Header) (d : SettingsData) (k : Byte) : Statement (.set09 h d k) :=
  of_frame rfl (wellFormed_frameWith (fun _ => by decide) rfl)

theorem set0A (h : Header) (d : SettingsData) (k : Byte) : Statement (.set0A h d k) :=
  of_frame rfl (wellFormed_frameWith (fun _ => by decide) rfl)

theorem set0B (h : Header) (d : SettingsData) (k : Byte) : Statement (.set0B h d k) :=
  of_frame rfl (wellFormed_frameWith (fun _ => by decide) rfl)

theorem set0C (h : Header) (d : SettingsData) (k : Byte) : Statement (.set0C h d k) :=
  of_frame rfl (wellFormed_frameWith (fun _ => by decide) rfl)

theorem set0D (h : Header) (d : SettingsData) (k : Byte) : Statement (.set0D h d k) :=
  of_frame rfl (wellFormed_frameWith (fun _ => by decide) rfl)

theorem set0E (h : Header) (d : SettingsData) (k : Byte) : Statement (.set0E h d k) :=
  of_frame rfl (wellFormed_frameWith (fun _ => by decide) rfl)

theorem ack10 (h : Header) (d : SettingsData) (k : Byte) : Statement (.ack10 h d k) :=
  of_frame rfl (wellFormed_frameWith (fun _ => by decide) rfl)

theorem ack11 (h : Header) (d : SettingsData) (k : Byte) : Statement (.ack11 h d k) :=
  of_frame rfl (wellFormed_frameWith (fun _ => by decide) rfl)

theorem ack12 (h : Header) (d : SettingsData) (k : Byte) : Statement (.ack12 h d k) :=
  of_frame rfl (wellFormed_frameWith (fun _ => by decide) rfl)

theorem ack13 (h : Header) (d : SettingsData) (k : Byte) : Statement (.ack13 h d k) :=
  of_frame rfl (wellFormed_frameWith (fun _ => by decide) rfl)

theorem ack14 (h : Header) (d : SettingsData) (k : Byte) : Statement (.ack14 h d k) :=
  of_frame rfl (wellFormed_frameWith (fun _ => by decide) rfl)

theorem ack15 (h : Header) (d : SettingsData) (k : Byte) : Statement (.ack15 h d k) :=
  of_frame rfl (wellFormed_frameWith (fun _ => by decide) rfl)

theorem ack16 (h : Header) (d : SettingsData) (k : Byte) : Statement (.ack16 h d k) :=
  of_frame rfl (wellFormed_frameWith (fun _ => by decide) rfl)

theorem ack17 (h : Header) (d : SettingsData) (k : Byte) : Statement (.ack17 h d k) :=
  of_frame rfl (wellFormed_frameWith (fun _ => by decide) rfl)

theorem ack18 (h : Header) (d : SettingsData) (k : Byte) : Statement (.ack18 h d k) :=
  of_frame rfl (wellFormed_frameWith (fun _ => by decide) rfl)

theorem ack19 (h : Header) (d : SettingsData) (k : Byte) : Statement (.ack19 h d k) :=
  of_frame rfl (wellFormed_frameWith (fun _ => by decide) rfl)

theorem ack1A (h : Header) (d : SettingsData) (k : Byte) : Statement (.ack1A h d k) :=
  of_frame rfl (wellFormed_frameWith (fun _ => by decide) rfl)

theorem ack1B (h : Header) (d : SettingsData) (k : Byte) : Statement (.ack1B h d k) :=
  of_frame rfl (wellFormed_frameWith (fun _ => by decide) rfl)

theorem ack1C (h : Header) (d : SettingsData) (k : Byte) : Statement (.ack1C h d k) :=
  of_frame rfl (wellFormed_frameWith (fun _ => by decide) rfl)

theorem ack1D (h : Header) (d : SettingsData) (k : Byte) : Statement (.ack1D h d k) :=
  of_frame rfl (wellFormed_frameWith (fun _ => by decide) rfl)

theorem ack1E (h : Header) (d : SettingsData) (k : Byte) : Statement (.ack1E h d k) :=
  of_frame rfl (wellFormed_frameWith (fun _ => by decide) rfl)

theorem ctl20 (h : Header) (d : SettingsData) (k : Byte) : Statement (.ctl20 h d k) :=
  of_frame rfl (wellFormed_frameWith (fun _ => by decide) rfl)

theorem ctl21 (h : Header) (d : SettingsData) (k : Byte) : Statement (.ctl21 h d k) :=
  of_frame rfl (wellFormed_frameWith (fun _ => by decide) rfl)

theorem ctl22 (h : Header) (d : SettingsData) (k : Byte) : Statement (.ctl22 h d k) :=
  of_frame rfl (wellFormed_frameWith (fun _ => by decide) rfl)

theorem ctl23 (h : Header) (d : SettingsData) (k : Byte) : Statement (.ctl23 h d k) :=
  of_frame rfl (wellFormed_frameWith (fun _ => by decide) rfl)

theorem ctl24 (h : Header) (d : SettingsData) (k : Byte) : Statement (.ctl24 h d k) :=
  of_frame rfl (wellFormed_frameWith (fun _ => by decide) rfl)

theorem cack30 (h : Header) (d : SettingsData) (k : Byte) : Statement (.cack30 h d k) :=
  of_frame rfl (wellFormed_frameWith (fun _ => by decide) rfl)

theorem cack31 (h : Header) (d : SettingsData) (k : Byte) : Statement (.cack31 h d k) :=
  of_frame rfl (wellFormed_frameWith (fun _ => by decide) rfl)

theorem cack32 (h : Header) (d : SettingsData) (k : Byte) : Statement (.cack32 h d k) :=
  of_frame rfl (wellFormed_frameWith (fun _ => by decide) rfl)

theorem cack33 (h : Header) (d : SettingsData) (k : Byte) : Statement (.cack33 h d k) :=
  of_frame rfl (wellFormed_frameWith (fun _ => by decide) rfl)

theorem cack34 (h : Header) (d : SettingsData) (k : Byte) : Statement (.cack34 h d k) :=
  of_frame rfl (wellFormed_frameWith (fun _ => by decide) rfl)

theorem rd40 (h : Header) (trigger : Byte) (k : Byte) : Statement (.rd40 h trigger k) :=
  of_frame rfl (wellFormed_frameWith (fun _ => by decide) rfl)

theorem rd41 (h : Header) (trigger : Byte) (k : Byte) : Statement (.rd41 h trigger k) :=
  of_frame rfl (wellFormed_frameWith (fun _ => by decide) rfl)

theorem rd42 (h : Header) (trigger : Byte) (k : Byte) : Statement (.rd42 h trigger k) :=
  of_frame rfl (wellFormed_frameWith (fun _ => by decide) rfl)

theorem rd43 (h : Header) (trigger : Byte) (k : Byte) : Statement (.rd43 h trigger k) :=
  of_frame rfl (wellFormed_frameWith (fun _ => by decide) rfl)

theorem rb50 (h : Header) (d : MotorData) (k : Byte) : Statement (.rb50 h d k) :=
  of_frame rfl (wellFormed_frameWith (fun _ => by decide) rfl)

theorem rb51 (h : Header) (d : OtherData) (k : Byte) : Statement (.rb51 h d k) :=
  of_frame rfl (wellFormed_frameWith (fun _ => by decide) rfl)

theorem rb52 (h : Header) (d : PidData) (k : Byte) : Statement (.rb52 h d k) :=
  of_frame rfl (wellFormed_frameWith (fun _ => by decide) rfl)

theorem rb53 (h : Header) (d : PidData) (k : Byte) : Statement (.rb53 h d k) :=
  of_frame rfl (wellFormed_frameWith (fun _ => by decide) rfl)

theorem i2cRdregReq (h : Header) (raw : List Byte) (k : Byte) : Statement (.i2cRdregReq h raw k) := by
  intro hi
  exact of_frame rfl (wellFormed_frameWith (fun _ => by decide) (by exact eq_of_beq hi)) hi

theorem i2cWrregReq (h : Header) (raw : List Byte) (k : Byte) : Statement (.i2cWrregReq h raw k) := by
  intro hi
  exact of_frame rfl (wellFormed_frameWith (fun _ => by decide) (by exact eq_of_beq hi)) hi

theorem i2cRdrawReq (h : Header) (raw : List Byte) (k : Byte) : Statement (.i2cRdrawReq h raw k) := by
  intro hi
  exact of_frame rfl (wellFormed_frameWith (fun _ => by decide) (by exact eq_of_beq hi)) hi

theorem i2cWrrawReq (h : Header) (raw : List Byte) (k : Byte) : Statement (.i2cWrrawReq h raw k) := by
  intro hi
  exact of_frame rfl (wellFormed_frameWith (fun _ => by decide) (by exact eq_of_beq hi)) hi

theorem i2cRdregResp (h : Header) (raw : List Byte) (k : Byte) : Statement (.i2cRdregResp h raw k) := by
  intro hi
  exact of_frame rfl (wellFormed_frameWith (fun _ => by decide) (by exact eq_of_beq hi)) hi

theorem i2cWrregResp (h : Header) (raw : List Byte) (k : Byte) : Statement (.i2cWrregResp h raw k) := by
  intro hi
  exact of_frame rfl (wellFormed_frameWith (fun _ => by decide) (by exact eq_of_beq hi)) hi

theorem i2cRdrawResp (h : Header) (raw : List Byte) (k : Byte) : Statement (.i2cRdrawResp h raw k) := by
  intro hi
  exact of_frame rfl (wellFormed_frameWith (fun _ => by decide) (by exact eq_of_beq hi)) hi

theorem i2cWrrawResp (h : Header) (raw : List Byte) (k : Byte) : Statement (.i2cWrrawResp h raw k) := by
  intro hi
  exact of_frame rfl (wellFormed_frameWith (fun _ => by decide) (by exact eq_of_beq hi)) hi

theorem otherReq (command deviceId : Byte) (d : SettingsData) (k : Byte) : Statement (.otherReq command deviceId d k) := by
  intro hi
  have hf : family command = .other ∧ command ≠ magic1 := by simpa [wellFormed, isFallbackRequest] using hi
  exact of_frame rfl (wellFormed_frameWith (fun _ => hf.2) (by rw [shapeOf_other hf.1]; rfl)) hi

theorem otherResp (magic2 command deviceId : Byte) (d : SettingsData) (k : Byte) : Statement (.otherResp magic2 command deviceId d k) := by
  intro hi
  have hf : family command = .other := by simpa [wellFormed, isFallbackResponse] using hi
  exact of_frame rfl (wellFormed_frameWith (by simp) (by rw [shapeOf_other hf]; rfl)) hi

theorem checksum (S : List Byte) : Statement (.checksum S) :=
  of_request rfl rfl (by decide)

theorem frameLength (command : Int) : Statement (.frameLength command) :=
  of_request rfl rfl (by decide)

theorem decode (B : List Byte) : Statement (.decode B) :=
  of_request rfl rfl (by decide)

theorem encode (F : FrameArg) : Statement (.encode F) :=
  of_request rfl rfl (by decide)

theorem setTarget (id : Int) : Statement (.setTarget id) :=
  of_request rfl rfl (by decide)

theorem sendSetting (command data1 data2 data3 : Int) : Statement (.sendSetting command data1 data2 data3) :=
  of_request rfl rfl (by decide)

theorem verifySettingResponse (command data1 data2 data3 : Int) : Statement (.verifySettingResponse command data1 data2 data3) :=
  of_request rfl rfl (by decide)

theorem requestStatus (command : Int) : Statement (.requestStatus command) :=
  of_request rfl rfl (by decide)

theorem i2cExchange (command : Int) (raw : List Byte) : Statement (.i2cExchange command raw) :=
  of_request rfl rfl (by decide)

end Sys2Proof.Laws.EncodedSize
end

