-- ==== Sys2Proof/Laws/Runs.lean ====
section
/-! SUPPORT. The ways an instruction can run, said once for all 67, and the operand of ENCODE as a Frame. -/

namespace Sys2Proof.Machine

/-! ## The Frame operand -/

theorem fits_length {p : PayloadArg} {s : Shape} (h : p.fits s = true) : p.toBytes.length = payloadSize s := by
  cases p <;> simp only [PayloadArg.fits, Bool.and_eq_true, Bool.or_eq_true, beq_iff_eq] at h
  · exact h
  · obtain ⟨⟨⟨rfl, -⟩, -⟩, -⟩ := h; rfl
  · obtain ⟨rfl, -⟩ := h; rfl
  · obtain ⟨⟨⟨⟨⟨⟨rfl, -⟩, -⟩, -⟩, -⟩, -⟩, -⟩ := h; rfl
  · obtain ⟨⟨⟨⟨⟨⟨rfl, -⟩, -⟩, -⟩, -⟩, -⟩, -⟩ := h; rfl
  · obtain ⟨⟨⟨⟨⟨⟨rfl | rfl, -⟩, -⟩, -⟩, -⟩, -⟩, -⟩ := h <;> rfl

/-- A well-formed operand is a request of a code other than the marker, or a response with both optional fields, every byte field
in range. -/
theorem argWellFormed_cases {a : FrameArg} (h : a.wellFormed = true) :
    (∃ cmd dev k : Byte, ∃ p : PayloadArg, a = ⟨cmd.toNat, none, none, dev.toNat, shapeOf cmd, p, k.toNat⟩
        ∧ cmd ≠ magic1 ∧ p.fits (shapeOf cmd) = true)
      ∨ (∃ m cmd dev k : Byte, ∃ p : PayloadArg,
          a = ⟨0xAA, some m.toNat, some cmd.toNat, dev.toNat, shapeOf cmd, p, k.toNat⟩
        ∧ p.fits (shapeOf cmd) = true) := by
  obtain ⟨b, m2, ac, dev, sh, p, k⟩ := a
  simp only [FrameArg.wellFormed, Bool.and_eq_true, beq_iff_eq] at h
  obtain ⟨⟨⟨⟨hh, hd⟩, hk⟩, hs⟩, hp⟩ := h
  obtain ⟨dev, rfl⟩ := exists_byte_of_isU8 hd
  obtain ⟨k, rfl⟩ := exists_byte_of_isU8 hk
  rcases m2 with _ | m <;> rcases ac with _ | c <;> simp only [FrameArg.headerOk] at hh
  · simp only [Bool.and_eq_true, Bool.not_eq_true', decide_eq_false_iff_not] at hh
    obtain ⟨hb, hu⟩ := hh
    obtain ⟨b, rfl⟩ := exists_byte_of_isU8 hu
    simp only [FrameArg.command, hb, if_false, Option.map_some, byteOf_toNat, Option.some.injEq] at hs
    subst hs
    refine .inl ⟨b, dev, k, p, rfl, ?_, hp⟩
    rintro rfl
    exact hb rfl
  · simp at hh
  · simp at hh
  · simp only [Bool.and_eq_true, decide_eq_true_eq] at hh
    obtain ⟨⟨rfl, hm⟩, hc⟩ := hh
    obtain ⟨m, rfl⟩ := exists_byte_of_isU8 hm
    obtain ⟨c, rfl⟩ := exists_byte_of_isU8 hc
    simp only [FrameArg.command, if_true, Option.map_some, byteOf_toNat, Option.some.injEq] at hs
    subst hs
    exact .inr ⟨m, c, dev, k, p, rfl, hp⟩

theorem toFrame_wellFormed {a : FrameArg} (h : a.wellFormed = true) : a.toFrame.wellFormed = true := by
  rcases argWellFormed_cases h with ⟨cmd, dev, k, p, rfl, hc, hp⟩ | ⟨m, cmd, dev, k, p, rfl, hp⟩
  · simpa [FrameArg.toFrame] using wellFormed_request (k := k) (dev := dev) hc (fits_length hp)
  · have := wellFormed_response (k := k) (m := m) (dev := dev) (fits_length hp)
    simpa [FrameArg.toFrame, magic1, byteOf] using this

/-- A Frame given as an operand is well-formed where the Frame is, and is that Frame. -/
theorem toArg_wellFormed {F : Frame} (h : F.wellFormed = true) :
    F.toArg.wellFormed = true ∧ F.toArg.toFrame = F := by
  rcases wellFormed_cases h with ⟨cmd, dev, p, k, rfl, hc, hp⟩ | ⟨m, cmd, dev, p, k, rfl, hp⟩
  · have hb : ¬ ((cmd.toNat : Int) = 0xAA) := by
      intro e; apply hc; apply BitVec.eq_of_toNat_eq
      rw [show magic1.toNat = 170 from rfl]; omega
    simp [FrameArg.wellFormed, Frame.toArg, FrameArg.headerOk, FrameArg.command, FrameArg.toFrame, PayloadArg.fits,
      PayloadArg.toBytes, hb, hp]
  · have hb : ((magic1.toNat : Nat) : Int) = 0xAA := rfl
    simp [FrameArg.wellFormed, Frame.toArg, FrameArg.headerOk, FrameArg.command, FrameArg.toFrame, PayloadArg.fits,
      PayloadArg.toBytes, hb, hp]
    rfl

/-! ## The request frames of the dispatcher -/

theorem requestFrame_wellFormed {cmd target : Byte} {p : List Byte} (hc : cmd ≠ magic1)
    (hp : p.length = payloadSize (shapeOf cmd)) : (requestFrame cmd target p).wellFormed = true :=
  wellFormed_frameWith (fun _ => hc) hp

theorem sendAdmits_iff (cmd : Byte) (a b c : Word) :
    sendAdmits cmd.toNat a.toInt b.toInt c.toInt = true
      ↔ cmd ≠ magic1 ∧ (family cmd = .reqSet ∨ family cmd = .reqCtl ∨ family cmd = .other) := by
  have key : ∀ n : Fin 256, (BitVec.ofFin n : Byte) ≠ magic1 →
      (((shapeOf (BitVec.ofFin n) == .settings) && decide (frameLength (BitVec.ofFin n) = 15)) = true
        ↔ (family (BitVec.ofFin n) = .reqSet ∨ family (BitVec.ofFin n) = .reqCtl
            ∨ family (BitVec.ofFin n) = .other)) := by decide +kernel
  have hm : ((cmd.toNat : Int) = 0xAA) ↔ cmd = magic1 := by
    constructor
    · intro e; apply BitVec.eq_of_toNat_eq; rw [show magic1.toNat = 170 from rfl]; omega
    · rintro rfl; rfl
  simp only [sendAdmits, isU8_toNat, isS32_toInt, byteOf_toNat, Bool.true_and, Bool.and_true, Bool.and_assoc,
    Bool.and_eq_true (decide _) _, decide_eq_true_eq, ne_eq, hm]
  constructor
  · rintro ⟨h1, h2⟩; exact ⟨h1, (key cmd.toFin h1).mp h2⟩
  · rintro ⟨h1, h2⟩; exact ⟨h1, (key cmd.toFin h1).mpr h2⟩

/-! ## The ways an instruction can run -/

/-- The states an instruction can end in, by the body that ran. -/
inductive Ran (i : Instr) (s : State) : State → Prop
  | refused : Ran i s s.refuse
  | checksum (S : List Byte) (h : s.phase = .idle) : Ran i s (checksumBody S s.start).finish
  | length (n : Nat) (h : s.phase = .idle) : Ran i s (State.setResult (.length n) s.start).finish
  | decoded (B : List Byte) (h : s.phase = .idle) : Ran i s (decodeBody B s.start).finish
  | encoded (F : Frame) (hw : F.wellFormed = true) (h : s.phase = .idle) : Ran i s (encodeBody F s.start).finish
  | targeted (id : Int) (hi : i = .setTarget id) (h : s.phase = .idle) :
    Ran i s (setTargetBody (byteOf id) s.start).finish
  | sent (F : Frame) (hw : F.wellFormed = true) (hi : ∃ c a b d, i = .sendSetting c a b d) (h : s.phase = .idle) :
    Ran i s (sendHalf F s.start).finish
  | verified (len : Nat) (hl : len ≤ maxFrame) (a b d : Int) (hi : ∃ c a b d, i = .verifySettingResponse c a b d)
    (h : s.phase = .idle) :
    Ran i s ((receiveHalf len .settings s.start).andThen (verdictOk a b d)).finish
  | exchanged (F : Frame) (hw : F.wellFormed = true) (len : Nat) (hl : len ≤ maxFrame) (sh : Shape)
    (result : FrameReg → Option Result)
    (hi : (∃ c, i = .requestStatus c) ∧ result = statusResult ∨ (∃ c raw, i = .i2cExchange c raw) ∧ result = i2cResult)
    (h : s.phase = .idle) :
    Ran i s (((sendHalf F s.start).andThen (receiveHalf len sh)).andThen (verdictValid result)).finish

theorem runFrame_ran (i : Instr) (F : Frame) (s : State) : Ran i s (runFrame F s) := by
  unfold runFrame
  rcases runOp_cases true (decodeBody (frameBytes F)) s with h | ⟨h, -, e⟩
  · rw [h]; exact .refused
  · rw [e]; exact .decoded _ h

theorem requestResponse_ran {i : Instr} {admitted : Bool} {cmd : Byte} {p : List Byte}
    {result : FrameReg → Option Result} (s : State)
    (hp : admitted = true → p.length = payloadSize (shapeOf cmd))
    (hi : (∃ c, i = .requestStatus c) ∧ result = statusResult ∨ (∃ c raw, i = .i2cExchange c raw) ∧ result = i2cResult) :
    Ran i s (requestResponse admitted cmd p result s) := by
  unfold requestResponse
  split
  · next target rc ht hr =>
    rcases runOp_cases admitted
        (fun s0 => ((sendHalf (requestFrame cmd target p) s0).andThen
          (receiveHalf (frameLength rc) (shapeOf rc))).andThen (verdictValid result)) s with h | ⟨h, ha, e⟩
    · rw [h]; exact .refused
    · rw [e]
      exact .exchanged _ (requestFrame_wellFormed (ne_magic1_of_request (respCode_family hr).1) (hp ha)) _
        (frameLength_le rc) _ _ hi h
  · exact .refused

/-- The results of the exchanges are neither Frames nor byte strings of the codec. -/
theorem statusResult_kind {F : FrameReg} {r : Result} (h : statusResult F = some r) :
    (∀ G, r ≠ .frame G) ∧ ∀ B, r ≠ .bytes B := by
  unfold statusResult at h
  cases hs : F.shape with
  | none => simp [hs] at h
  | some sh =>
    rw [hs] at h
    cases sh <;> simp only [Option.bind_some, descale, Option.some.injEq, reduceCtorEq] at h <;> subst h <;> simp

theorem i2cResult_kind {F : FrameReg} {r : Result} (h : i2cResult F = some r) :
    (∀ G, r ≠ .frame G) ∧ ∀ B, r ≠ .bytes B := by
  unfold i2cResult at h
  obtain ⟨p, -, rfl⟩ := Option.map_eq_some_iff.mp h
  simp

theorem statusAdmits_shape {command : Int} (h : statusAdmits command = true) :
    shapeOf (byteOf command) = .readTrigger := by
  simp only [statusAdmits, Bool.and_eq_true, beq_iff_eq] at h
  have key : ∀ c : Byte, family c = .reqRd → shapeOf c = .readTrigger := by
    apply byte_cases; decide +kernel
  exact key _ h.2

/-- Every instruction answers a next state, which is one of these. -/
theorem exec_ran (i : Instr) (s : State) : ∃ t, exec i s = .next t ∧ Ran i s t := by
  cases i
  case checksum S =>
    refine ⟨_, rfl, ?_⟩
    rcases runOp_cases true (checksumBody S) s with h | ⟨h, -, e⟩
    · rw [h]; exact .refused
    · rw [e]; exact .checksum S h
  case frameLength c =>
    refine ⟨_, rfl, ?_⟩
    rcases runOp_cases (isU8 c) (State.setResult (.length (frameLength (byteOf c)))) s with h | ⟨h, -, e⟩
    · rw [h]; exact .refused
    · rw [e]; exact .length _ h
  case decode B =>
    refine ⟨_, rfl, ?_⟩
    rcases runOp_cases true (decodeBody B) s with h | ⟨h, -, e⟩
    · rw [h]; exact .refused
    · rw [e]; exact .decoded _ h
  case encode F =>
    refine ⟨_, rfl, ?_⟩
    rcases runOp_cases F.wellFormed (encodeBody F.toFrame) s with h | ⟨h, hw, e⟩
    · rw [h]; exact .refused
    · rw [e]; exact .encoded _ (toFrame_wellFormed hw) h
  case setTarget id =>
    refine ⟨_, rfl, ?_⟩
    rcases runOp_cases (isU8 id) (setTargetBody (byteOf id)) s with h | ⟨h, -, e⟩
    · rw [h]; exact .refused
    · rw [e]; exact .targeted _ rfl h
  case sendSetting c a b d =>
    refine ⟨_, rfl, ?_⟩
    unfold sendSettingState
    split
    · exact .refused
    · next target ht =>
      rcases runOp_cases (sendAdmits c a b d)
          (sendHalf (requestFrame (byteOf c) target (settingsBytes ⟨wordOf a, wordOf b, wordOf d⟩))) s
        with h | ⟨h, ha, e⟩
      · rw [h]; exact .refused
      · rw [e]
        simp only [sendAdmits, Bool.and_eq_true, decide_eq_true_eq, beq_iff_eq] at ha
        obtain ⟨⟨⟨⟨⟨⟨hu, hm⟩, hs⟩, -⟩, -⟩, -⟩, -⟩ := ha
        refine .sent _ (requestFrame_wellFormed ?_ (by rw [hs]; rfl)) ⟨_, _, _, _, rfl⟩ h
        obtain ⟨cmd, rfl⟩ := exists_byte_of_isU8 hu
        rw [byteOf_toNat]
        rintro rfl
        exact hm rfl
  case verifySettingResponse c a b d =>
    refine ⟨_, rfl, ?_⟩
    unfold verifyState
    rcases runOp_cases (verifyAdmits c)
        (fun s0 => (receiveHalf (frameLength (byteOf c)) .settings s0).andThen (verdictOk a b d)) s with h | ⟨h, -, e⟩
    · rw [h]; exact .refused
    · rw [e]; exact .verified _ (frameLength_le _) _ _ _ ⟨_, _, _, _, rfl⟩ h
  case requestStatus c =>
    exact ⟨_, rfl, requestResponse_ran s (fun ha => by rw [statusAdmits_shape ha]; rfl) (.inl ⟨⟨_, rfl⟩, rfl⟩)⟩
  case i2cExchange c raw =>
    refine ⟨_, rfl, requestResponse_ran s (fun ha => ?_) (.inr ⟨⟨_, _, rfl⟩, rfl⟩)⟩
    simp only [i2cAdmits, Bool.and_eq_true, beq_iff_eq] at ha
    exact ha.2
  all_goals exact ⟨_, rfl, runFrame_ran _ _ s⟩

/-- What an instruction ended in, it ran to. -/
theorem ran_of_exec {i : Instr} {s t : State} (h : exec i s = .next t) : Ran i s t := by
  obtain ⟨t', e, r⟩ := exec_ran i s
  rw [e] at h
  injection h with h
  exact h ▸ r

end Sys2Proof.Machine
end

