-- ==== Sys2Proof/Laws/Scaling.lean ====
section
/-! SUPPORT. Truncation and clamping of rationals, the colour word, the buffer writes, and what a setting's plan says. -/

namespace Sys2Proof.Machine

/-! ## Truncation and clamping -/

/-- Truncation goes toward zero and loses less than one. -/
theorem truncRat_spec (q : Rat) :
    (0 ≤ q → (0 : Rat) ≤ truncRat q ∧ (truncRat q : Rat) ≤ q ∧ q < truncRat q + 1)
      ∧ (q ≤ 0 → (truncRat q : Rat) ≤ 0 ∧ q ≤ truncRat q ∧ (truncRat q : Rat) - 1 < q) := by
  have hd : (0 : Int) < q.den := by exact_mod_cast q.den_pos
  have hdq : (0 : Rat) < q.den := by exact_mod_cast q.den_pos
  have hq : q * q.den = q.num := Rat.mul_den_eq_num q
  constructor
  · intro h
    have hn : 0 ≤ q.num := Rat.num_nonneg.mpr h
    have e : truncRat q = q.num / q.den := Int.tdiv_eq_ediv_of_nonneg hn
    have h1 : q.num / q.den * q.den ≤ q.num := Int.ediv_mul_le _ hd.ne'
    have h2 : q.num < (q.num / q.den + 1) * q.den := Int.lt_ediv_add_one_mul_self _ hd
    have h1q : ((q.num / q.den : Int) : Rat) * q.den ≤ q.num := by exact_mod_cast h1
    have h2q : (q.num : Rat) < ((q.num / q.den : Int) + 1) * q.den := by exact_mod_cast h2
    rw [e]
    refine ⟨by exact_mod_cast Int.ediv_nonneg hn hd.le, ?_, ?_⟩
    · exact le_of_mul_le_mul_right (by rw [hq]; exact h1q) hdq
    · exact lt_of_mul_lt_mul_right (by rw [hq]; exact h2q) hdq.le
  · intro h
    have hn : 0 ≤ -q.num := by have := Rat.num_nonpos.mpr h; omega
    have e : truncRat q = -(-q.num / q.den) := by
      rw [← Int.tdiv_eq_ediv_of_nonneg hn, Int.neg_tdiv, neg_neg]; rfl
    have h1 : -q.num / q.den * q.den ≤ -q.num := Int.ediv_mul_le _ hd.ne'
    have h2 : -q.num < (-q.num / q.den + 1) * q.den := Int.lt_ediv_add_one_mul_self _ hd
    have h1q : ((-q.num / q.den : Int) : Rat) * q.den ≤ -q.num := by exact_mod_cast h1
    have h2q : (-q.num : Rat) < ((-q.num / q.den : Int) + 1) * q.den := by exact_mod_cast h2
    have h0 : (0 : Rat) ≤ ((-q.num / q.den : Int) : Rat) := by exact_mod_cast Int.ediv_nonneg hn hd.le
    rw [e]
    push_cast
    refine ⟨by linarith, ?_, ?_⟩
    · refine le_of_mul_le_mul_right ?_ hdq; rw [hq]; linarith
    · refine lt_of_mul_lt_mul_right ?_ hdq.le; rw [hq]; linarith

@[simp] theorem truncRat_intCast (n : Int) : truncRat n = n := by
  simp [truncRat]

theorem clampRat_mem {lo hi : Rat} (x : Rat) (h : lo ≤ hi) : lo ≤ clampRat x lo hi ∧ clampRat x lo hi ≤ hi := by
  unfold clampRat
  split_ifs with h1 h2
  · exact ⟨le_rfl, h⟩
  · exact ⟨h, le_rfl⟩
  · exact ⟨not_lt.mp h1, not_lt.mp h2⟩

theorem clampRat_of_mem {x lo hi : Rat} (h1 : lo ≤ x) (h2 : x ≤ hi) : clampRat x lo hi = x := by
  rw [clampRat, if_neg (not_lt.mpr h1), if_neg (not_lt.mpr h2)]

theorem clampInt_mem {lo hi : Int} (x : Int) (h : lo ≤ hi) : lo ≤ clampInt x lo hi ∧ clampInt x lo hi ≤ hi := by
  unfold clampInt
  split_ifs with h1 h2 <;> omega

/-- A scaled word lies within the scaled clamp bounds. -/
theorem wire100_mem {lo hi : Int} (x : Rat) (h : lo ≤ hi) :
    lo * 100 ≤ wire100 x lo hi ∧ wire100 x lo hi ≤ hi * 100 := by
  obtain ⟨h1, h2⟩ := clampRat_mem x (lo := lo) (hi := hi) (by exact_mod_cast h)
  have key : (lo : Rat) * 100 ≤ (wire100 x lo hi : Rat) ∧ (wire100 x lo hi : Rat) ≤ (hi : Rat) * 100 := by
    unfold wire100
    generalize clampRat x lo hi = y at h1 h2
    have hl : ((lo * 100 : Int) : Rat) ≤ y * 100 := by push_cast; linarith
    have hh : y * 100 ≤ ((hi * 100 : Int) : Rat) := by push_cast; linarith
    obtain ⟨hp, hn⟩ := truncRat_spec (y * 100)
    rcases le_total 0 (y * 100) with h0 | h0
    · obtain ⟨a, b, c⟩ := hp h0
      have c' : ((lo * 100 : Int) : Rat) < ((truncRat (y * 100) + 1 : Int) : Rat) := by push_cast at *; linarith
      have c'' : lo * 100 < truncRat (y * 100) + 1 := by exact_mod_cast c'
      refine ⟨by exact_mod_cast Int.lt_add_one_iff.mp c'', by push_cast at hh; linarith⟩
    · obtain ⟨a, b, c⟩ := hn h0
      have c' : ((truncRat (y * 100) - 1 : Int) : Rat) < ((hi * 100 : Int) : Rat) := by push_cast at *; linarith
      have c'' : truncRat (y * 100) - 1 < hi * 100 := by exact_mod_cast c'
      refine ⟨by push_cast at hl; linarith, by exact_mod_cast (by omega : truncRat (y * 100) ≤ hi * 100)⟩
  exact ⟨by exact_mod_cast key.1, by exact_mod_cast key.2⟩

/-- A word that lies within the scaled bounds comes back from its physical value. -/
theorem wire100_div {lo hi w : Int} (h1 : lo * 100 ≤ w) (h2 : w ≤ hi * 100) : wire100 ((w : Rat) / 100) lo hi = w := by
  have h1' : (lo : Rat) * 100 ≤ w := by exact_mod_cast h1
  have h2' : (w : Rat) ≤ hi * 100 := by exact_mod_cast h2
  rw [wire100, clampRat_of_mem (by linarith) (by linarith), div_mul_cancel₀ _ (by norm_num), truncRat_intCast]

/-! ## Buffers -/

theorem memRead_eq_some {B v : List Byte} {addr n : Nat} :
    memRead B addr n = some v ↔ addr + n ≤ B.length ∧ v = (B.drop addr).take n := by
  unfold memRead
  split <;> simp_all [eq_comm]

/-- A write keeps the buffer's length and every byte outside what it writes. -/
theorem memWrite_spec (v B : List Byte) (addr : Nat) :
    (memWrite B addr v).length = B.length
      ∧ ∀ j, j < addr ∨ addr + v.length ≤ j → (memWrite B addr v)[j]? = B[j]? := by
  induction v generalizing B addr with
  | nil => exact ⟨rfl, fun _ _ => rfl⟩
  | cons b rest ih =>
    obtain ⟨h1, h2⟩ := ih (B.set addr b) (addr + 1)
    refine ⟨by rw [memWrite, h1, List.length_set], fun j hj => ?_⟩
    have hne : addr ≠ j := by simp only [List.length_cons] at hj; omega
    rw [memWrite, h2 j (by simp only [List.length_cons] at hj; omega), List.getElem?_set_ne hne]

/-- A write that lies inside the buffer puts its bytes between what stood before and after them. -/
theorem memWrite_eq (v B : List Byte) (addr : Nat) (h : addr + v.length ≤ B.length) :
    memWrite B addr v = B.take addr ++ v ++ B.drop (addr + v.length) := by
  induction v generalizing B addr with
  | nil => simp [memWrite]
  | cons b rest ih =>
    simp only [List.length_cons] at h
    rw [memWrite, ih _ _ (by rw [List.length_set]; omega)]
    have h1 : (B.set addr b).take (addr + 1) = B.take addr ++ [b] := by
      rw [List.take_add_one, List.take_set_of_le (Nat.le_refl addr), List.getElem?_set_self (by omega)]; rfl
    rw [h1, List.drop_set_of_lt (by omega)]
    simp [Nat.add_assoc, Nat.add_comm 1]

/-- A number read back from as many bytes as it was laid into is that number, cut to their width. -/
theorem leNat_wordBytes (n w : Nat) : leNat (wordBytes n w) = w % 256 ^ n := by
  induction n generalizing w with
  | zero => simp [wordBytes, leNat, Nat.mod_one]
  | succ n ih =>
    rw [wordBytes, leNat, ih, BitVec.toNat_ofNat, show 256 ^ (n + 1) = 256 * 256 ^ n from Nat.pow_succ']
    exact Nat.mod_mul.symm

/-- The bytes laid out for an I2C pseudo-operation are as many as the shape has. -/
theorem layRaw_length (slots : List I2cSlot) (size : Nat) (a : I2cArgs) : (layRaw slots size a).length = size := by
  have key : ∀ (l : List I2cSlot) (B : List Byte),
      (l.foldl (fun raw slot => memWrite raw slot.offset (fieldBytes a slot)) B).length = B.length := by
    intro l
    induction l with
    | nil => intro B; rfl
    | cons s l ih => intro B; rw [List.foldl_cons, ih, (memWrite_spec _ _ _).1]
  rw [layRaw, key, List.length_replicate]

/-! ## Plans -/

/-- A setting's plan carries the code's response code, and its words fit s32. -/
theorem settingPlan_eq_some {code : Byte} {a b c : Int} {p : Plan} (h : settingPlan code a b c = some p) :
    ∃ resp, p = .setting code resp a b c ∧ respCode code = some resp
      ∧ isS32 a = true ∧ isS32 b = true ∧ isS32 c = true := by
  unfold settingPlan at h
  split at h
  · next rc hr =>
    split at h
    · next hs =>
      simp only [Bool.and_eq_true] at hs
      exact ⟨rc, (Option.some.inj h).symm, hr, hs.1.1, hs.1.2, hs.2⟩
    · cases h
  · cases h

/-- A setting of a request code: its response code is 0x10 above, and it is sent exactly where its words fit s32. -/
theorem settingPlan_of_request {code : Byte} (h : family code = .reqSet ∨ family code = .reqCtl) (a b c : Int) :
    settingPlan code a b c
      = if isS32 a && isS32 b && isS32 c then some (.setting code (code + 0x10#8) a b c) else none := by
  have key : ∀ c : Byte, family c = .reqSet ∨ family c = .reqCtl → respCode c = some (c + 0x10#8) := by
    apply byte_cases; decide +kernel
  simp only [settingPlan, key code h]

/-- Arguments placed in order, unused words 0. -/
@[simp] theorem placedPlan_one (code : Byte) (a : Int) :
    placedPlan code (useByOrder 1) [a] = settingPlan code a 0 0 := rfl

@[simp] theorem placedPlan_two (code : Byte) (a b : Int) :
    placedPlan code (useByOrder 2) [a, b] = settingPlan code a b 0 := rfl

@[simp] theorem placedPlan_three (code : Byte) (a b c : Int) :
    placedPlan code (useByOrder 3) [a, b, c] = settingPlan code a b c := rfl

theorem clampInt_eq {lo hi : Int} (x : Int) (h : lo ≤ hi) : clampInt x lo hi = max lo (min x hi) := by
  unfold clampInt
  split_ifs <;> omega

end Sys2Proof.Machine
end

