-- ==== Sys2Proof/Tests/Slice0.lean ====
section
/-! SUPPORT. The model's own tests: ill-formed terms, words written out from the encodings, one-step checks against the vectors of
95_test_vectors, and for every statement with hypotheses a state and operands that meet them. -/

set_option Elab.async false

namespace Sys2Proof.Tests

open Sys2Proof Sys2Proof.Machine

/-! ## Helpers -/

/-- Surface codes with the open ones set to some plain settings. -/
def testCodes : SurfaceCodes :=
  { defaultSurfaceCodes with
    setMode := 0x01#8, removeProtection := 0x02#8, commitFlash := 0x03#8, setEncoderCount := 0x04#8
    setButtonMode := 0x05#8, setRgb := 0x0A#8, setBaudRate := 0x07#8, setDeviceId := 0x08#8
    jamProtection := 0x09#8, rangeProtection := 0x0B#8 }

/-- The parameters the vectors assume: not strict, trigger byte 0. -/
def testConfig : Config where
  strictUnknown := false
  readTrigger := 0x00#8
  tSettle := 0
  transportTimeout := 0
  i2cMap := defaultFieldMap
  surface := testCodes
  words := defaultSurfaceWords
  motorOff := 0#32
  commitWords := ⟨0#32, 0#32, 0#32⟩

/-- An idle state with a target id and an open transport that takes every write and whose next read delivers `incoming`. -/
def talking (target : Byte) (incoming : List Byte) : State :=
  { State.reset with
    cfg := testConfig
    targetId := some target
    wire :=
      { Transport.atReset with
        isOpen := true
        incoming := incoming
        writeAnswers := [.accept]
        readAnswers := [.deliver [] incoming.length] } }

/-- The same state with `STRICT_UNKNOWN`. -/
def strict (s : State) : State := { s with cfg := { s.cfg with strictUnknown := true } }

/-- A state whose transport raises: on the write after `n` bytes, on the read after taking one. -/
def raising (n : Nat) : State :=
  { talking 0x00#8 [0xAA#8] with
    wire :=
      { (talking 0x00#8 [0xAA#8]).wire with
        writeAnswers := [.raise n]
        readAnswers := [.raise [] 1] } }

/-- The state an outcome holds. -/
def after (o : Host.Outcome State Fault Refusal) : Option State :=
  match o with
  | .next t => some t
  | .fault _ => none
  | .refused _ => none

/-- Fault, confirmation and validity after an instruction. -/
def verdicts (i : Instr) (s : State) : Option (FaultKind × Option Bool × Option Bool) :=
  (after (exec i s)).map (fun t => (t.fault, t.out.ok, t.out.valid))

/-- Fault and bytes on the bus after an instruction. -/
def sends (i : Instr) (s : State) : Option (FaultKind × List Byte) :=
  (after (exec i s)).map (fun t => (t.fault, t.wire.outgoing))

/-- Fault and result after an instruction. -/
def gives (i : Instr) (s : State) : Option (FaultKind × Option Result) :=
  (after (exec i s)).map (fun t => (t.fault, t.out.result))

/-- A state for the codec: idle, nothing to hear. -/
def quiet : State := talking 0x05#8 []

/-! ## Ill-formed terms are refused -/

theorem test_illformed_i2cRdregReq : wellFormed (.i2cRdregReq ⟨.request, 0x01#8⟩ [0x00#8, 0x00#8, 0x00#8] 0x00#8) = false := by decide

theorem test_illformed_i2cWrregReq : wellFormed (.i2cWrregReq ⟨.request, 0x01#8⟩ [0x00#8, 0x00#8, 0x00#8] 0x00#8) = false := by decide

theorem test_illformed_i2cRdrawReq : wellFormed (.i2cRdrawReq ⟨.request, 0x01#8⟩ [0x00#8, 0x00#8, 0x00#8] 0x00#8) = false := by decide

theorem test_illformed_i2cWrrawReq : wellFormed (.i2cWrrawReq ⟨.request, 0x01#8⟩ [0x00#8, 0x00#8, 0x00#8] 0x00#8) = false := by decide

theorem test_illformed_i2cRdregResp : wellFormed (.i2cRdregResp ⟨.request, 0x01#8⟩ [0x00#8, 0x00#8, 0x00#8] 0x00#8) = false := by decide

theorem test_illformed_i2cWrregResp : wellFormed (.i2cWrregResp ⟨.request, 0x01#8⟩ [0x00#8, 0x00#8, 0x00#8] 0x00#8) = false := by decide

theorem test_illformed_i2cRdrawResp : wellFormed (.i2cRdrawResp ⟨.request, 0x01#8⟩ [0x00#8, 0x00#8, 0x00#8] 0x00#8) = false := by decide

theorem test_illformed_i2cWrrawResp : wellFormed (.i2cWrrawResp ⟨.request, 0x01#8⟩ [0x00#8, 0x00#8, 0x00#8] 0x00#8) = false := by decide

theorem test_illformed_otherReq_known : wellFormed (.otherReq 0x00#8 0x01#8 ⟨0#32, 0#32, 0#32⟩ 0x00#8) = false := by decide

theorem test_illformed_otherReq_marker : wellFormed (.otherReq 0xAA#8 0x01#8 ⟨0#32, 0#32, 0#32⟩ 0x00#8) = false := by
  decide

theorem test_illformed_otherResp_known : wellFormed (.otherResp 0x55#8 0x73#8 0x01#8 ⟨0#32, 0#32, 0#32⟩ 0x00#8) = false := by
  decide

/-! ## Words written out from the encodings -/

/-- A settings request behind its code: device 5, words 0x12345678, -2, -2147483648, checksum byte 9C (30_encoding R52, R61). -/
def settingsTail : List Byte :=
  [0x05#8, 0x78#8, 0x56#8, 0x34#8, 0x12#8, 0xFE#8, 0xFF#8, 0xFF#8, 0xFF#8, 0x00#8, 0x00#8, 0x00#8, 0x80#8, 0x9C#8]

/-- The same fields as operands. -/
def settingsFields : SettingsData := ⟨0x12345678#32, 0xFFFFFFFE#32, 0x80000000#32⟩

theorem test_decode_set :
    decode (.frame (0x00#8 :: settingsTail)) = .ok (.set00 ⟨.request, 0x05#8⟩ settingsFields 0x9C#8)
      ∧ decode (.frame (0x01#8 :: settingsTail)) = .ok (.set01 ⟨.request, 0x05#8⟩ settingsFields 0x9C#8)
      ∧ decode (.frame (0x02#8 :: settingsTail)) = .ok (.set02 ⟨.request, 0x05#8⟩ settingsFields 0x9C#8)
      ∧ decode (.frame (0x03#8 :: settingsTail)) = .ok (.set03 ⟨.request, 0x05#8⟩ settingsFields 0x9C#8)
      ∧ decode (.frame (0x04#8 :: settingsTail)) = .ok (.set04 ⟨.request, 0x05#8⟩ settingsFields 0x9C#8)
      ∧ decode (.frame (0x05#8 :: settingsTail)) = .ok (.set05 ⟨.request, 0x05#8⟩ settingsFields 0x9C#8)
      ∧ decode (.frame (0x06#8 :: settingsTail)) = .ok (.set06 ⟨.request, 0x05#8⟩ settingsFields 0x9C#8)
      ∧ decode (.frame (0x07#8 :: settingsTail)) = .ok (.set07 ⟨.request, 0x05#8⟩ settingsFields 0x9C#8)
      ∧ decode (.frame (0x08#8 :: settingsTail)) = .ok (.set08 ⟨.request, 0x05#8⟩ settingsFields 0x9C#8)
      ∧ decode (.frame (0x09#8 :: settingsTail)) = .ok (.set09 ⟨.request, 0x05#8⟩ settingsFields 0x9C#8)
      ∧ decode (.frame (0x0A#8 :: settingsTail)) = .ok (.set0A ⟨.request, 0x05#8⟩ settingsFields 0x9C#8)
      ∧ decode (.frame (0x0B#8 :: settingsTail)) = .ok (.set0B ⟨.request, 0x05#8⟩ settingsFields 0x9C#8)
      ∧ decode (.frame (0x0C#8 :: settingsTail)) = .ok (.set0C ⟨.request, 0x05#8⟩ settingsFields 0x9C#8)
      ∧ decode (.frame (0x0D#8 :: settingsTail)) = .ok (.set0D ⟨.request, 0x05#8⟩ settingsFields 0x9C#8)
      ∧ decode (.frame (0x0E#8 :: settingsTail)) = .ok (.set0E ⟨.request, 0x05#8⟩ settingsFields 0x9C#8) := by decide +kernel

theorem test_decode_ack :
    decode (.frame (0xAA#8 :: 0x55#8 :: 0x10#8 :: settingsTail)) = .ok (.ack10 ⟨.response 0x55#8, 0x05#8⟩ settingsFields 0x9C#8)
      ∧ decode (.frame (0xAA#8 :: 0x55#8 :: 0x11#8 :: settingsTail)) = .ok (.ack11 ⟨.response 0x55#8, 0x05#8⟩ settingsFields 0x9C#8)
      ∧ decode (.frame (0xAA#8 :: 0x55#8 :: 0x12#8 :: settingsTail)) = .ok (.ack12 ⟨.response 0x55#8, 0x05#8⟩ settingsFields 0x9C#8)
      ∧ decode (.frame (0xAA#8 :: 0x55#8 :: 0x13#8 :: settingsTail)) = .ok (.ack13 ⟨.response 0x55#8, 0x05#8⟩ settingsFields 0x9C#8)
      ∧ decode (.frame (0xAA#8 :: 0x55#8 :: 0x14#8 :: settingsTail)) = .ok (.ack14 ⟨.response 0x55#8, 0x05#8⟩ settingsFields 0x9C#8)
      ∧ decode (.frame (0xAA#8 :: 0x55#8 :: 0x15#8 :: settingsTail)) = .ok (.ack15 ⟨.response 0x55#8, 0x05#8⟩ settingsFields 0x9C#8)
      ∧ decode (.frame (0xAA#8 :: 0x55#8 :: 0x16#8 :: settingsTail)) = .ok (.ack16 ⟨.response 0x55#8, 0x05#8⟩ settingsFields 0x9C#8)
      ∧ decode (.frame (0xAA#8 :: 0x55#8 :: 0x17#8 :: settingsTail)) = .ok (.ack17 ⟨.response 0x55#8, 0x05#8⟩ settingsFields 0x9C#8)
      ∧ decode (.frame (0xAA#8 :: 0x55#8 :: 0x18#8 :: settingsTail)) = .ok (.ack18 ⟨.response 0x55#8, 0x05#8⟩ settingsFields 0x9C#8)
      ∧ decode (.frame (0xAA#8 :: 0x55#8 :: 0x19#8 :: settingsTail)) = .ok (.ack19 ⟨.response 0x55#8, 0x05#8⟩ settingsFields 0x9C#8)
      ∧ decode (.frame (0xAA#8 :: 0x55#8 :: 0x1A#8 :: settingsTail)) = .ok (.ack1A ⟨.response 0x55#8, 0x05#8⟩ settingsFields 0x9C#8)
      ∧ decode (.frame (0xAA#8 :: 0x55#8 :: 0x1B#8 :: settingsTail)) = .ok (.ack1B ⟨.response 0x55#8, 0x05#8⟩ settingsFields 0x9C#8)
      ∧ decode (.frame (0xAA#8 :: 0x55#8 :: 0x1C#8 :: settingsTail)) = .ok (.ack1C ⟨.response 0x55#8, 0x05#8⟩ settingsFields 0x9C#8)
      ∧ decode (.frame (0xAA#8 :: 0x55#8 :: 0x1D#8 :: settingsTail)) = .ok (.ack1D ⟨.response 0x55#8, 0x05#8⟩ settingsFields 0x9C#8)
      ∧ decode (.frame (0xAA#8 :: 0x55#8 :: 0x1E#8 :: settingsTail)) = .ok (.ack1E ⟨.response 0x55#8, 0x05#8⟩ settingsFields 0x9C#8) := by decide +kernel

theorem test_decode_ctl :
    decode (.frame (0x20#8 :: settingsTail)) = .ok (.ctl20 ⟨.request, 0x05#8⟩ settingsFields 0x9C#8)
      ∧ decode (.frame (0x21#8 :: settingsTail)) = .ok (.ctl21 ⟨.request, 0x05#8⟩ settingsFields 0x9C#8)
      ∧ decode (.frame (0x22#8 :: settingsTail)) = .ok (.ctl22 ⟨.request, 0x05#8⟩ settingsFields 0x9C#8)
      ∧ decode (.frame (0x23#8 :: settingsTail)) = .ok (.ctl23 ⟨.request, 0x05#8⟩ settingsFields 0x9C#8)
      ∧ decode (.frame (0x24#8 :: settingsTail)) = .ok (.ctl24 ⟨.request, 0x05#8⟩ settingsFields 0x9C#8) := by decide +kernel

theorem test_decode_cack :
    decode (.frame (0xAA#8 :: 0x00#8 :: 0x30#8 :: settingsTail)) = .ok (.cack30 ⟨.response 0x00#8, 0x05#8⟩ settingsFields 0x9C#8)
      ∧ decode (.frame (0xAA#8 :: 0x00#8 :: 0x31#8 :: settingsTail)) = .ok (.cack31 ⟨.response 0x00#8, 0x05#8⟩ settingsFields 0x9C#8)
      ∧ decode (.frame (0xAA#8 :: 0x00#8 :: 0x32#8 :: settingsTail)) = .ok (.cack32 ⟨.response 0x00#8, 0x05#8⟩ settingsFields 0x9C#8)
      ∧ decode (.frame (0xAA#8 :: 0x00#8 :: 0x33#8 :: settingsTail)) = .ok (.cack33 ⟨.response 0x00#8, 0x05#8⟩ settingsFields 0x9C#8)
      ∧ decode (.frame (0xAA#8 :: 0x00#8 :: 0x34#8 :: settingsTail)) = .ok (.cack34 ⟨.response 0x00#8, 0x05#8⟩ settingsFields 0x9C#8) := by decide +kernel

theorem test_decode_rd :
    decode (.frame [0x40#8, 0x01#8, 0x07#8, 0xF5#8]) = .ok (.rd40 ⟨.request, 0x01#8⟩ 0x07#8 0xF5#8)
      ∧ decode (.frame [0x41#8, 0x01#8, 0x07#8, 0xF5#8]) = .ok (.rd41 ⟨.request, 0x01#8⟩ 0x07#8 0xF5#8)
      ∧ decode (.frame [0x42#8, 0x01#8, 0x07#8, 0xF5#8]) = .ok (.rd42 ⟨.request, 0x01#8⟩ 0x07#8 0xF5#8)
      ∧ decode (.frame [0x43#8, 0x01#8, 0x07#8, 0xF5#8]) = .ok (.rd43 ⟨.request, 0x01#8⟩ 0x07#8 0xF5#8) := by decide +kernel

/-- Words of 95_test_vectors V2.4-7 to V2.4-10. -/
theorem test_decode_rb :
    decode (.frame [0xAA#8, 0x55#8, 0x50#8, 0x01#8, 0x10#8, 0x27#8, 0x00#8, 0x00#8, 0x5F#8, 0xEC#8, 0xFF#8, 0xFF#8, 0x7B#8, 0x00#8, 0x00#8, 0x00#8, 0x01#8, 0x01#8, 0x00#8, 0x8A#8])
        = .ok (.rb50 ⟨.response 0x55#8, 0x01#8⟩ ⟨10000#32, 0xFFFFEC5F#32, 123#32, 0x01#8, 0x01#8, 0x00#8⟩ 0x8A#8)
      ∧ decode (.frame [0xAA#8, 0x55#8, 0x51#8, 0x01#8, 0xB0#8, 0x04#8, 0x00#8, 0x00#8, 0xAC#8, 0x0D#8, 0x00#8, 0x00#8, 0xD6#8, 0xFF#8, 0xFF#8, 0xFF#8, 0x01#8, 0x32#8, 0x00#8, 0x2D#8])
        = .ok (.rb51 ⟨.response 0x55#8, 0x01#8⟩ ⟨1200#32, 3500#32, 0xFFFFFFD6#32, 0x01#8, 0x32#8, 0x00#8⟩ 0x2D#8)
      ∧ decode (.frame [0xAA#8, 0x55#8, 0x52#8, 0x01#8, 0xF0#8, 0x49#8, 0x02#8, 0x00#8, 0xE8#8, 0x03#8, 0x00#8, 0x00#8, 0x00#8, 0x09#8, 0x3D#8, 0x00#8, 0x0A#8, 0x14#8, 0x1E#8, 0xF1#8])
        = .ok (.rb52 ⟨.response 0x55#8, 0x01#8⟩ ⟨150000#32, 1000#32, 4000000#32, 0x0A#8, 0x14#8, 0x1E#8⟩ 0xF1#8)
      ∧ decode (.frame [0xAA#8, 0x55#8, 0x53#8, 0x01#8, 0xF0#8, 0x49#8, 0x02#8, 0x00#8, 0x00#8, 0x00#8, 0x00#8, 0x00#8, 0xFF#8, 0xFF#8, 0xFF#8, 0xFF#8, 0x02#8, 0x01#8, 0x00#8, 0x58#8])
        = .ok (.rb53 ⟨.response 0x55#8, 0x01#8⟩ ⟨150000#32, 0#32, 0xFFFFFFFF#32, 0x02#8, 0x01#8, 0x00#8⟩ 0x58#8) := by
  decide +kernel

/-- Words of 95_test_vectors V2.4-17 to V2.4-20. -/
theorem test_decode_i2cReq :
    decode (.frame [0x60#8, 0x01#8, 0x50#8, 0x02#8, 0x10#8, 0x00#8, 0x04#8, 0xA6#8])
        = .ok (.i2cRdregReq ⟨.request, 0x01#8⟩ [0x50#8, 0x02#8, 0x10#8, 0x00#8, 0x04#8] 0xA6#8)
      ∧ decode (.frame [0x61#8, 0x01#8, 0x50#8, 0x01#8, 0x10#8, 0x00#8, 0x02#8, 0x01#8, 0xDE#8, 0xAD#8, 0x00#8, 0x00#8, 0x00#8, 0x00#8, 0x00#8, 0x00#8, 0x00#8, 0x00#8, 0x00#8, 0x00#8, 0x00#8, 0x00#8, 0x00#8, 0x00#8, 0xEF#8])
        = .ok (.i2cWrregReq ⟨.request, 0x01#8⟩ [0x50#8, 0x01#8, 0x10#8, 0x00#8, 0x02#8, 0x01#8, 0xDE#8, 0xAD#8, 0x00#8, 0x00#8, 0x00#8, 0x00#8, 0x00#8, 0x00#8, 0x00#8, 0x00#8, 0x00#8, 0x00#8, 0x00#8, 0x00#8, 0x00#8, 0x00#8] 0xEF#8)
      ∧ decode (.frame [0x62#8, 0x01#8, 0x50#8, 0x04#8, 0x2A#8])
        = .ok (.i2cRdrawReq ⟨.request, 0x01#8⟩ [0x50#8, 0x04#8] 0x2A#8)
      ∧ decode (.frame [0x63#8, 0x01#8, 0x50#8, 0x00#8, 0x00#8, 0x00#8, 0x03#8, 0x01#8, 0x01#8, 0x02#8, 0x03#8, 0x00#8, 0x00#8, 0x00#8, 0x00#8, 0x00#8, 0x00#8, 0x00#8, 0x00#8, 0x00#8, 0x00#8, 0x00#8, 0x00#8, 0x00#8, 0xFF#8])
        = .ok (.i2cWrrawReq ⟨.request, 0x01#8⟩ [0x50#8, 0x00#8, 0x00#8, 0x00#8, 0x03#8, 0x01#8, 0x01#8, 0x02#8, 0x03#8, 0x00#8, 0x00#8, 0x00#8, 0x00#8, 0x00#8, 0x00#8, 0x00#8, 0x00#8, 0x00#8, 0x00#8, 0x00#8, 0x00#8, 0x00#8] 0xFF#8) := by decide +kernel

/-- Words of 95_test_vectors V2.4-21 to V2.4-24. -/
theorem test_decode_i2cResp :
    decode (.frame [0xAA#8, 0x55#8, 0x70#8, 0x01#8, 0x50#8, 0x02#8, 0x10#8, 0x00#8, 0x04#8, 0x00#8, 0xDE#8, 0xAD#8, 0xBE#8, 0xEF#8, 0x00#8, 0x00#8, 0x00#8, 0x00#8, 0x00#8, 0x00#8, 0x00#8, 0x00#8, 0x00#8, 0x00#8, 0x00#8, 0x00#8, 0x4C#8])
        = .ok (.i2cRdregResp ⟨.response 0x55#8, 0x01#8⟩ [0x50#8, 0x02#8, 0x10#8, 0x00#8, 0x04#8, 0x00#8, 0xDE#8, 0xAD#8, 0xBE#8, 0xEF#8, 0x00#8, 0x00#8, 0x00#8, 0x00#8, 0x00#8, 0x00#8, 0x00#8, 0x00#8, 0x00#8, 0x00#8, 0x00#8, 0x00#8] 0x4C#8)
      ∧ decode (.frame [0xAA#8, 0x55#8, 0x71#8, 0x01#8, 0x01#8, 0xDE#8])
        = .ok (.i2cWrregResp ⟨.response 0x55#8, 0x01#8⟩ [0x01#8] 0xDE#8)
      ∧ decode (.frame [0xAA#8, 0x55#8, 0x72#8, 0x01#8, 0x50#8, 0x00#8, 0x00#8, 0x00#8, 0x04#8, 0x00#8, 0xDE#8, 0xAD#8, 0xBE#8, 0xEF#8, 0x00#8, 0x00#8, 0x00#8, 0x00#8, 0x00#8, 0x00#8, 0x00#8, 0x00#8, 0x00#8, 0x00#8, 0x00#8, 0x00#8, 0xDE#8])
        = .ok (.i2cRdrawResp ⟨.response 0x55#8, 0x01#8⟩ [0x50#8, 0x00#8, 0x00#8, 0x00#8, 0x04#8, 0x00#8, 0xDE#8, 0xAD#8, 0xBE#8, 0xEF#8, 0x00#8, 0x00#8, 0x00#8, 0x00#8, 0x00#8, 0x00#8, 0x00#8, 0x00#8, 0x00#8, 0x00#8, 0x00#8, 0x00#8] 0xDE#8)
      ∧ decode (.frame [0xAA#8, 0x55#8, 0x73#8, 0x01#8, 0x01#8, 0x91#8])
        = .ok (.i2cWrrawResp ⟨.response 0x55#8, 0x01#8⟩ [0x01#8] 0x91#8) := by decide +kernel

/-- Words of 95_test_vectors V2.4-5 and V2.4-12. -/
theorem test_decode_other :
    decode (.frame [0x0F#8, 0x01#8, 0x07#8, 0x00#8, 0x00#8, 0x00#8, 0x08#8, 0x00#8, 0x00#8, 0x00#8, 0x09#8, 0x00#8, 0x00#8, 0x00#8, 0xA2#8])
        = .ok (.otherReq 0x0F#8 0x01#8 ⟨7#32, 8#32, 9#32⟩ 0xA2#8)
      ∧ decode (.frame [0xAA#8, 0xAA#8, 0xAA#8, 0xAA#8, 0xAA#8, 0xAA#8, 0xAA#8, 0xAA#8, 0xAA#8, 0xAA#8, 0xAA#8, 0xAA#8, 0xAA#8, 0xAA#8, 0xAA#8, 0xAA#8, 0x12#8])
        = .ok (.otherResp 0xAA#8 0xAA#8 0xAA#8 ⟨0xAAAAAAAA#32, 0xAAAAAAAA#32, 0xAAAAAAAA#32⟩ 0x12#8) := by
  decide +kernel

/-- Codes behind the other framing: 95_test_vectors V2.4-13 to V2.4-16. -/
theorem test_decode_crossed_framing :
    decode (.frame [0xAA#8, 0x55#8, 0x00#8, 0x01#8, 0x01#8, 0x00#8, 0x00#8, 0x00#8, 0x00#8, 0x00#8, 0x00#8, 0x00#8, 0x00#8, 0x00#8, 0x00#8, 0x00#8, 0xCF#8]) = .ok (.set00 ⟨.response 0x55#8, 0x01#8⟩ ⟨1#32, 0#32, 0#32⟩ 0xCF#8)
      ∧ decode (.frame [0x10#8, 0x01#8, 0x01#8, 0x00#8, 0x00#8, 0x00#8, 0x00#8, 0x00#8, 0x00#8, 0x00#8, 0x00#8, 0x00#8, 0x00#8, 0x00#8, 0x3D#8]) = .ok (.ack10 ⟨.request, 0x01#8⟩ ⟨1#32, 0#32, 0#32⟩ 0x3D#8)
      ∧ decode (.frame [0x71#8, 0x01#8, 0x07#8, 0x03#8]) = .ok (.i2cWrregResp ⟨.request, 0x01#8⟩ [0x07#8] 0x03#8)
      ∧ decode (.frame [0xAA#8, 0x55#8, 0x40#8, 0x01#8, 0x00#8, 0xF5#8]) = .ok (.rd40 ⟨.response 0x55#8, 0x01#8⟩ 0x00#8 0xF5#8) := by
  decide +kernel

/-- A Frame operand: request 0x00 to device 0 with words 1, 0, 0 (95_test_vectors V2.5-1). -/
def motorOnArg : FrameArg := ⟨0x00, none, none, 0, .settings, .settings 1 0 0, 0x68⟩

/-- Op-select numbers and defaults of 30_encoding R51, R74; 9 and 15 are no operations. -/
theorem test_decode_operations :
    decode (.op 0#4 [.bytes [0x01#8]]) = .ok (.checksum [0x01#8])
      ∧ decode (.op 1#4 [.int 64]) = .ok (.frameLength 64)
      ∧ decode (.op 2#4 [.bytes []]) = .ok (.decode [])
      ∧ decode (.op 3#4 [.frame motorOnArg]) = .ok (.encode motorOnArg)
      ∧ decode (.op 4#4 [.int 5]) = .ok (.setTarget 5)
      ∧ decode (.op 5#4 [.int 0, .int 1]) = .ok (.sendSetting 0 1 0 0)
      ∧ decode (.op 6#4 [.int 16]) = .ok (.verifySettingResponse 16 0 0 0)
      ∧ decode (.op 7#4 [.int 64]) = .ok (.requestStatus 64)
      ∧ decode (.op 8#4 [.int 98, .bytes [0x50#8, 0x04#8]]) = .ok (.i2cExchange 98 [0x50#8, 0x04#8])
      ∧ decode (.op 9#4 []) = .error (.noSuchOperation 9#4)
      ∧ decode (.op 15#4 [.int 0]) = .error (.noSuchOperation 15#4)
      ∧ decode (.op 5#4 [.int 0]) = .error (.operandKind 5#4) := by
  decide +kernel

/-- Strings too short for what they announce: 95_test_vectors V2.4-25 to V2.4-30. -/
theorem test_decode_too_short :
    decode (.frame []) = .error .frameTooShort
      ∧ decode (.frame [0xAA#8, 0x55#8]) = .error .frameTooShort
      ∧ decode (.frame [0xAA#8, 0x55#8, 0x10#8]) = .error .frameTooShort
      ∧ decode (.frame [0x00#8, 0x05#8, 0x01#8, 0x00#8, 0x00#8, 0x00#8, 0x00#8, 0x00#8, 0x00#8, 0x00#8, 0x00#8, 0x00#8, 0x00#8, 0x00#8]) = .error .frameTooShort
      ∧ decode (.frame [0xAA#8, 0x55#8, 0x00#8, 0x01#8, 0x01#8, 0x00#8, 0x00#8, 0x00#8, 0x00#8, 0x00#8, 0x00#8, 0x00#8, 0x00#8, 0x00#8, 0x00#8]) = .error .frameTooShort := by
  decide +kernel

/-- Table words: SET_00 in 8 bits, op-select 4 in 4 bits, a response of code 0x10 in 24 bits. -/
theorem test_table_words :
    decodeTableWord 8 0x00 = some (.set00 ⟨.request, 0x00#8⟩ ⟨0#32, 0#32, 0#32⟩ 0x00#8)
      ∧ decodeTableWord 4 0x4 = some (.setTarget 0)
      ∧ decodeTableWord 24 0x1055AA = some (.ack10 ⟨.response 0x55#8, 0x00#8⟩ ⟨0#32, 0#32, 0#32⟩ 0x00#8) := by
  decide +kernel

/-! ## One step against the vectors -/

/-- 95_test_vectors V2.1-1, V2.1-3, V2.1-10, V2.1-18. -/
theorem test_checksum :
    gives (.checksum []) quiet = some (.none, some (.byte 0x00#8))
      ∧ gives (.checksum [0x01#8]) quiet = some (.none, some (.byte 0x5E#8))
      ∧ gives (.checksum [0x31#8, 0x32#8, 0x33#8, 0x34#8, 0x35#8, 0x36#8, 0x37#8, 0x38#8, 0x39#8]) quiet = some (.none, some (.byte 0xA1#8))
      ∧ gives (.checksum [0x00#8, 0x00#8, 0x01#8, 0x00#8, 0x00#8, 0x00#8, 0x00#8, 0x00#8, 0x00#8, 0x00#8, 0x00#8, 0x00#8, 0x00#8, 0x00#8]) quiet = some (.none, some (.byte 0x68#8)) := by
  decide +kernel

/-- 95_test_vectors 2.3 and 41_frame_length R93. -/
theorem test_frameLength :
    gives (.frameLength 0x73) quiet = some (.none, some (.length 6))
      ∧ gives (.frameLength 0xFF) quiet = some (.none, some (.length 15))
      ∧ gives (.frameLength 256) quiet = some (.refused, none) := by
  decide +kernel

/-- DECODE ends with this fault, these of is_response, magic_ok and known, and this consumed. -/
def decodesTo (B : List Byte) (s : State) (k : FaultKind) (flags : List (Option Bool)) (n : Option Nat) : Bool :=
  match after (exec (.decode B) s) with
  | some t => t.fault == k && [t.out.isResponse, t.out.magicOk, t.out.known] == flags && t.out.consumed == n
  | none => false

/-- 95_test_vectors V2.4-11, V2.4-5, V2.4-31. -/
theorem test_decode_outputs :
    decodesTo [0xAA#8, 0x00#8, 0x10#8, 0x00#8, 0x01#8, 0x00#8, 0x00#8, 0x00#8, 0x00#8, 0x00#8, 0x00#8, 0x00#8, 0x00#8, 0x00#8, 0x00#8, 0x00#8, 0x9A#8] quiet .none [some true, some false, some true] (some 17)
      ∧ decodesTo [0x0F#8, 0x01#8, 0x07#8, 0x00#8, 0x00#8, 0x00#8, 0x08#8, 0x00#8, 0x00#8, 0x00#8, 0x09#8, 0x00#8, 0x00#8, 0x00#8, 0xA2#8] quiet .none [some false, some false, some false] (some 15)
      ∧ decodesTo [0x00#8, 0x05#8, 0x01#8, 0x00#8, 0x00#8, 0x00#8, 0x00#8, 0x00#8, 0x00#8, 0x00#8, 0x00#8, 0x00#8, 0x00#8, 0x00#8, 0x61#8, 0x77#8] quiet .none [some false, some false, some true] (some 15) := by
  decide +kernel

/-- 95_test_vectors V2.4-27, V2.4-34 to V2.4-36. -/
theorem test_decode_faults :
    decodesTo [0xAA#8, 0x55#8, 0x10#8] quiet .frameTooShort [none, none, none] none
      ∧ decodesTo [0x0F#8] (strict quiet) .frameTooShort [none, none, none] none
      ∧ decodesTo [0x0F#8, 0x01#8] (strict quiet) .unknownCommand [none, none, none] none
      ∧ decodesTo [0x00#8, 0x05#8, 0x01#8, 0x00#8, 0x00#8, 0x00#8, 0x00#8, 0x00#8, 0x00#8, 0x00#8, 0x00#8, 0x00#8, 0x00#8, 0x00#8, 0x61#8] (strict quiet) .none [some false, some false, some true] (some 15) := by
  decide +kernel

/-- A row's meaning: `F`, `pos` and `consumed` after a readback frame (95_test_vectors V2.4-7). -/
theorem test_row_loads_frame :
    (after (exec (.rb50 ⟨.response 0x55#8, 0x01#8⟩ ⟨10000#32, 0xFFFFEC5F#32, 123#32, 0x01#8, 0x01#8, 0x00#8⟩ 0x8A#8)
        quiet)).map (fun t => (t.frame.shape, t.frame.payload, t.pos, t.out.consumed))
      = some (some .motorStatus, some [0x10#8, 0x27#8, 0x00#8, 0x00#8, 0x5F#8, 0xEC#8, 0xFF#8, 0xFF#8, 0x7B#8, 0x00#8, 0x00#8, 0x00#8, 0x01#8, 0x01#8, 0x00#8], 20, some 20) := by
  decide +kernel

/-- 95_test_vectors V2.5-1, V2.5-7 with checksum as given, V2.5-11. -/
theorem test_encode :
    gives (.encode motorOnArg) quiet = some (.none, some (.bytes [0x00#8, 0x00#8, 0x01#8, 0x00#8, 0x00#8, 0x00#8, 0x00#8, 0x00#8, 0x00#8, 0x00#8, 0x00#8, 0x00#8, 0x00#8, 0x00#8, 0x68#8]))
      ∧ gives (.encode ⟨0x24, none, none, 1, .settings, .settings (-120000) 0 0, 0x67⟩) quiet
        = some (.none, some (.bytes [0x24#8, 0x01#8, 0x40#8, 0x2B#8, 0xFE#8, 0xFF#8, 0x00#8, 0x00#8, 0x00#8, 0x00#8, 0x00#8, 0x00#8, 0x00#8, 0x00#8, 0x67#8]))
      ∧ gives (.encode ⟨0xAA, some 0x55, some 0x50, 1, .motorStatus, .motorStatus 10000 (-5025) 123 1 1 0, 0x8A⟩) quiet
        = some (.none, some (.bytes [0xAA#8, 0x55#8, 0x50#8, 0x01#8, 0x10#8, 0x27#8, 0x00#8, 0x00#8, 0x5F#8, 0xEC#8, 0xFF#8, 0xFF#8, 0x7B#8, 0x00#8, 0x00#8, 0x00#8, 0x01#8, 0x01#8, 0x00#8, 0x8A#8])) := by
  decide +kernel

/-- 95_test_vectors V2.5-8 to V2.5-10. -/
theorem test_encode_refused :
    gives (.encode ⟨0x00, none, none, 0, .motorStatus, .motorStatus 0 0 0 0 0 0, 0⟩) quiet = some (.refused, none)
      ∧ gives (.encode ⟨0x00, some 0x55, none, 0, .settings, .settings 0 0 0, 0⟩) quiet = some (.refused, none)
      ∧ gives (.encode ⟨0x00, none, none, 0, .settings, .settings 2147483648 0 0, 0⟩) quiet = some (.refused, none) := by
  decide +kernel

/-- 44_exchange R140. -/
theorem test_setTarget :
    (after (exec (.setTarget 255) quiet)).map (fun t => (t.fault, t.targetId)) = some (.none, some 0xFF#8)
      ∧ (after (exec (.setTarget 256) quiet)).map (fun t => (t.fault, t.targetId)) = some (.refused, some 0x05#8) := by
  decide +kernel

/-- 95_test_vectors V2.6-30, V2.6-33, V2.6-35. -/
theorem test_sendSetting :
    sends (.sendSetting 0x00 1 0 0) (talking 0x00#8 []) = some (.none, [0x00#8, 0x00#8, 0x01#8, 0x00#8, 0x00#8, 0x00#8, 0x00#8, 0x00#8, 0x00#8, 0x00#8, 0x00#8, 0x00#8, 0x00#8, 0x00#8, 0x68#8])
      ∧ sends (.sendSetting 0x20 10000 50000 0) (talking 0x01#8 [])
        = some (.none, [0x20#8, 0x01#8, 0x10#8, 0x27#8, 0x00#8, 0x00#8, 0x50#8, 0xC3#8, 0x00#8, 0x00#8, 0x00#8, 0x00#8, 0x00#8, 0x00#8, 0x4C#8])
      ∧ sends (.sendSetting 0xFF (-1) (-1) (-1)) (talking 0xFF#8 []) = some (.none, [0xFF#8, 0xFF#8, 0xFF#8, 0xFF#8, 0xFF#8, 0xFF#8, 0xFF#8, 0xFF#8, 0xFF#8, 0xFF#8, 0xFF#8, 0xFF#8, 0xFF#8, 0xFF#8, 0x1B#8]) := by
  decide +kernel

/-- 95_test_vectors V2.6-37 to V2.6-41. -/
theorem test_sendSetting_refused :
    sends (.sendSetting 0x00 1 0 0) { talking 0x00#8 [] with targetId := none } = some (.refused, [])
      ∧ sends (.sendSetting 0xAA 0 0 0) quiet = some (.refused, [])
      ∧ sends (.sendSetting 0x10 1 0 0) quiet = some (.refused, [])
      ∧ sends (.sendSetting 0x61 0 0 0) quiet = some (.refused, [])
      ∧ sends (.sendSetting 0x20 2147483648 0 0) quiet = some (.refused, [])
      ∧ sends (.sendSetting 0x00 1 0 0) (raising 3) = some (.transportError, [0x00#8, 0x00#8, 0x01#8]) := by
  decide +kernel

/-- The acknowledgement of 95_test_vectors V2.6-1. -/
def goodAck : List Byte := [0xAA#8, 0x55#8, 0x10#8, 0x00#8, 0x01#8, 0x00#8, 0x00#8, 0x00#8, 0x00#8, 0x00#8, 0x00#8, 0x00#8, 0x00#8, 0x00#8, 0x00#8, 0x00#8, 0x9A#8]

/-- 95_test_vectors V2.6-1, V2.6-2, V2.6-5, V2.6-16, V2.6-23. -/
theorem test_verify :
    verdicts (.verifySettingResponse 0x10 1 0 0) (talking 0x00#8 goodAck) = some (.none, some true, none)
      ∧ verdicts (.verifySettingResponse 0x10 1 0 0) (talking 0x00#8 [0xAA#8, 0x55#8, 0x10#8, 0x00#8, 0x01#8, 0x00#8, 0x00#8, 0x00#8, 0x00#8, 0x00#8, 0x00#8, 0x00#8, 0x00#8, 0x00#8, 0x00#8, 0x00#8, 0x65#8])
        = some (.none, some false, none)
      ∧ verdicts (.verifySettingResponse 0x10 1 0 0) (talking 0x00#8 [0xAA#8, 0x55#8, 0x10#8, 0x00#8, 0x00#8, 0x00#8, 0x00#8, 0x00#8, 0x00#8, 0x00#8, 0x00#8, 0x00#8, 0x00#8, 0x00#8, 0x00#8, 0x00#8, 0xF2#8])
        = some (.none, some false, none)
      ∧ verdicts (.verifySettingResponse 0x10 1 0 0) (talking 0x00#8 [0xAA#8, 0x55#8, 0x11#8, 0x00#8, 0x01#8, 0x00#8, 0x00#8, 0x00#8, 0x00#8, 0x00#8, 0x00#8, 0x00#8, 0x00#8, 0x00#8, 0x00#8, 0x00#8, 0xB6#8])
        = some (.none, some true, none)
      ∧ verdicts (.verifySettingResponse 0x32 (-2100000000) (-120000) 0)
          (talking 0x00#8 [0xAA#8, 0x55#8, 0x32#8, 0x01#8, 0x00#8, 0x8B#8, 0xD4#8, 0x82#8, 0x40#8, 0x2B#8, 0xFE#8, 0xFF#8, 0x00#8, 0x00#8, 0x00#8, 0x00#8, 0x6F#8]) = some (.none, some true, none) := by
  decide +kernel

/-- 95_test_vectors V2.6-9, V2.6-10, V2.6-11, V2.6-14, V2.6-22. -/
theorem test_verify_faults :
    verdicts (.verifySettingResponse 0x10 1 0 0) (talking 0x00#8 []) = some (.frameTooShort, none, none)
      ∧ verdicts (.verifySettingResponse 0x10 1 0 0) (raising 0) = some (.transportError, none, none)
      ∧ verdicts (.verifySettingResponse 0x10 1 0 0) (talking 0x00#8 [0x2A#8, 0x55#8, 0x10#8, 0x00#8, 0x01#8, 0x00#8, 0x00#8, 0x00#8, 0x00#8, 0x00#8, 0x00#8, 0x00#8, 0x00#8, 0x00#8, 0x00#8, 0x00#8, 0x9A#8])
        = some (.responseUnmarked, none, none)
      ∧ verdicts (.verifySettingResponse 0x10 1 0 0) (talking 0x00#8 [0xAA#8, 0x55#8, 0x71#8, 0x00#8, 0x01#8, 0x00#8, 0x00#8, 0x00#8, 0x00#8, 0x00#8, 0x00#8, 0x00#8, 0x00#8, 0x00#8, 0x00#8, 0x00#8, 0xA8#8])
        = some (.responseShape, none, none)
      ∧ verdicts (.verifySettingResponse 0x50 1 0 0) (talking 0x00#8 (goodAck ++ [0x01#8, 0x02#8, 0x03#8]))
        = some (.responseShape, none, none) := by
  decide +kernel

/-- The readback of 95_test_vectors V2.4-7. -/
def motorReadback : List Byte := [0xAA#8, 0x55#8, 0x50#8, 0x01#8, 0x10#8, 0x27#8, 0x00#8, 0x00#8, 0x5F#8, 0xEC#8, 0xFF#8, 0xFF#8, 0x7B#8, 0x00#8, 0x00#8, 0x00#8, 0x01#8, 0x01#8, 0x00#8, 0x8A#8]

/-- 95_test_vectors V2.6-50, V2.6-53, V2.6-54. -/
theorem test_requestStatus :
    gives (.requestStatus 0x40) (talking 0x01#8 motorReadback)
        = some (.none, some (.motorStatus 100 (-201 / 4) (123 / 100) 0x01#8 0x01#8 0x00#8))
      ∧ gives (.requestStatus 0x43) (talking 0x01#8 [0xAA#8, 0x55#8, 0x53#8, 0x01#8, 0xF0#8, 0x49#8, 0x02#8, 0x00#8, 0x00#8, 0x00#8, 0x00#8, 0x00#8, 0xFF#8, 0xFF#8, 0xFF#8, 0xFF#8, 0x02#8, 0x01#8, 0x00#8, 0x58#8])
        = some (.none, some (.pid (3 / 2) 0 (4294967295 / 100000) 0x02#8 0x01#8 0x00#8))
      ∧ verdicts (.requestStatus 0x40) (talking 0x01#8 (motorReadback.dropLast ++ [0x75#8]))
        = some (.none, none, some false)
      ∧ sends (.requestStatus 0x40) (talking 0x01#8 motorReadback) = some (.none, [0x40#8, 0x01#8, 0x00#8, 0xF5#8]) := by
  decide +kernel

/-- 95_test_vectors V2.6-56, V2.6-57, V2.6-59, V2.6-63, V2.6-65. -/
theorem test_requestStatus_faults :
    verdicts (.requestStatus 0x40) (talking 0x01#8 motorReadback.dropLast) = some (.frameTooShort, none, none)
      ∧ verdicts (.requestStatus 0x41) (talking 0x01#8 motorReadback) = some (.responseShape, none, none)
      ∧ verdicts (.requestStatus 0x40) (talking 0x01#8 (0x00#8 :: motorReadback.tail)) = some (.responseUnmarked, none, none)
      ∧ sends (.requestStatus 0x50) quiet = some (.refused, [])
      ∧ sends (.requestStatus 0x40) { raising 0 with wire := { (raising 0).wire with writeAnswers := [.accept] } }
        = some (.transportError, [0x40#8, 0x00#8, 0x00#8, 0x31#8]) := by
  decide +kernel

/-- 95_test_vectors V2.6-71, V2.6-72. -/
theorem test_i2cExchange :
    gives (.i2cExchange 0x61 [0x50#8, 0x01#8, 0x10#8, 0x00#8, 0x02#8, 0x01#8, 0xDE#8, 0xAD#8, 0x00#8, 0x00#8, 0x00#8, 0x00#8, 0x00#8, 0x00#8, 0x00#8, 0x00#8, 0x00#8, 0x00#8, 0x00#8, 0x00#8, 0x00#8, 0x00#8]) (talking 0x01#8 [0xAA#8, 0x55#8, 0x71#8, 0x01#8, 0x01#8, 0xDE#8])
        = some (.none, some (.raw [0x01#8]))
      ∧ gives (.i2cExchange 0x62 [0x50#8, 0x04#8]) (talking 0x01#8 [0xAA#8, 0x55#8, 0x72#8, 0x01#8, 0x50#8, 0x00#8, 0x00#8, 0x00#8, 0x04#8, 0x00#8, 0xDE#8, 0xAD#8, 0xBE#8, 0xEF#8, 0x00#8, 0x00#8, 0x00#8, 0x00#8, 0x00#8, 0x00#8, 0x00#8, 0x00#8, 0x00#8, 0x00#8, 0x00#8, 0x00#8, 0xDE#8])
        = some (.none, some (.raw [0x50#8, 0x00#8, 0x00#8, 0x00#8, 0x04#8, 0x00#8, 0xDE#8, 0xAD#8, 0xBE#8, 0xEF#8, 0x00#8, 0x00#8, 0x00#8, 0x00#8, 0x00#8, 0x00#8, 0x00#8, 0x00#8, 0x00#8, 0x00#8, 0x00#8, 0x00#8]))
      ∧ sends (.i2cExchange 0x62 [0x50#8, 0x04#8]) (talking 0x01#8 []) = some (.frameTooShort, [0x62#8, 0x01#8, 0x50#8, 0x04#8, 0x2A#8]) := by
  decide +kernel

/-- An answer to an addressed read, written out from 30_encoding R66 to R68 and the default overlay of R70; the checksum by 40_checksum
R81. -/
def registerAnswer : List Byte :=
  [0xAA#8, 0x55#8, 0x70#8, 0x01#8, 0x50#8, 0x02#8, 0x10#8, 0x01#8, 0x04#8, 0x01#8, 0xDE#8, 0xAD#8] ++ List.replicate 14 0x00#8
    ++ [0xC3#8]

/-- The value of a field after an instruction. -/
def fieldAfter (f : I2cField) (i : Instr) (s : State) : Option I2cValue :=
  (after (exec i s)).bind (i2cResultField f)

/-- 30_encoding R70, worked out by hand: the two bytes 10 01 of `reg_addr` are the u16 0x0110; none after a fault. -/
theorem test_i2c_fields :
    fieldAfter .regAddr (.i2cExchange 0x60 [0x50#8, 0x02#8, 0x10#8, 0x01#8, 0x04#8]) (talking 0x01#8 registerAnswer)
        = some (.number 0x0110)
      ∧ fieldAfter .dataLen (.i2cExchange 0x60 [0x50#8, 0x02#8, 0x10#8, 0x01#8, 0x04#8]) (talking 0x01#8 registerAnswer)
        = some (.number 4)
      ∧ fieldAfter .data (.i2cExchange 0x60 [0x50#8, 0x02#8, 0x10#8, 0x01#8, 0x04#8]) (talking 0x01#8 registerAnswer)
        = some (.bytes ([0xDE#8, 0xAD#8] ++ List.replicate 14 0x00#8))
      ∧ fieldAfter .addr (.i2cExchange 0x60 []) (talking 0x01#8 registerAnswer) = none := by
  decide +kernel

/-- 95_test_vectors V2.6-74, V2.6-76, V2.6-79. -/
theorem test_i2cExchange_faults :
    verdicts (.i2cExchange 0x61 [0x50#8, 0x01#8, 0x10#8, 0x00#8, 0x02#8, 0x01#8, 0xDE#8, 0xAD#8, 0x00#8, 0x00#8, 0x00#8, 0x00#8, 0x00#8, 0x00#8, 0x00#8, 0x00#8, 0x00#8, 0x00#8, 0x00#8, 0x00#8, 0x00#8, 0x00#8]) (talking 0x01#8 [0xAA#8, 0x55#8, 0x73#8, 0x01#8, 0x01#8, 0x91#8])
        = some (.responseShape, none, none)
      ∧ verdicts (.i2cExchange 0x61 [0x50#8, 0x01#8, 0x10#8, 0x00#8, 0x02#8, 0x01#8, 0xDE#8, 0xAD#8, 0x00#8, 0x00#8, 0x00#8, 0x00#8, 0x00#8, 0x00#8, 0x00#8, 0x00#8, 0x00#8, 0x00#8, 0x00#8, 0x00#8, 0x00#8, 0x00#8]) (talking 0x01#8 [0xAA#8, 0x55#8, 0x71#8, 0x01#8, 0x01#8, 0x00#8])
        = some (.none, none, some false)
      ∧ verdicts (.i2cExchange 0x60 [0x50#8, 0x02#8, 0x10#8, 0x00#8]) quiet = some (.refused, none, none)
      ∧ verdicts (.i2cExchange 0x64 []) quiet = some (.refused, none, none) := by
  decide +kernel

/-- 95_test_vectors V2.7-2, V2.7-5, V2.7-7 to V2.7-9, V2.7-11, V2.7-18. -/
theorem test_scaling :
    wireSpeed 99999999 = 2100000000 ∧ wireSpeed (-1239 / 1000) = -123 ∧ wireSpeed (-9 / 1000) = 0
      ∧ wireSpeed (29 / 100) = 29 ∧ wireCurrent (-1 / 2) = -50 ∧ wireGain (19 / 1000000) = 1
      ∧ packRgb (-5) 300 128 7 = 25231104 := by
  decide +kernel

/-- Words and code a pseudo-operation sends (95_test_vectors 2.7, last paragraph; V2.7-13, V2.7-24). -/
theorem test_surface_plans :
    plan testConfig (.setRgb (.finite 255) (.finite 0) (.finite 128) (.finite 1) (.finite 100))
        = some (.setting 0x0A#8 0x1A#8 25166079 100 0)
      ∧ plan testConfig (.setSpeedPid (.finite (2147483648 / 100000)) (.finite 0) (.finite 0)) = none
      ∧ plan testConfig (.setSpeed .nonFinite (.finite 0)) = none
      ∧ plan testConfig (.setDeviceId (.finite 999)) = some (.setting 0x08#8 0x18#8 255 0 0) := by
  decide +kernel

/-- An overlay of word use other than the default: brightness before colour (45_scaling_surface R190; log 22). -/
theorem test_surface_word_use :
    plan { testConfig with words := { defaultSurfaceWords with setRgb := ⟨.arg 1, .arg 0, .const 7#32⟩ } }
        (.setRgb (.finite 255) (.finite 0) (.finite 128) (.finite 1) (.finite 200))
      = some (.setting 0x0A#8 0x1A#8 100 25166079 7) := by
  decide +kernel

/-- An unclamped expected word gives `ok = 0`, no refusal (70_reset_and_hazards R248). -/
theorem test_verify_unclamped :
    verdicts (.verifySettingResponse 0x10 9999999900 0 0) (talking 0x00#8 goodAck) = some (.none, some false, none) := by
  decide +kernel

/-- A closed port raises after a prefix of the oracle's choosing (44_exchange R159; 60_exceptions R203). -/
theorem test_closed_port :
    sends (.sendSetting 0x00 1 0 0) { raising 2 with wire := { (raising 2).wire with isOpen := false } }
      = some (.transportError, [0x00#8, 0x00#8]) := by
  decide +kernel

/-- The motor-on exchange through the surface (source example S8). -/
theorem test_surface_motor :
    (after (step { talking 0x00#8 goodAck with inputs := [.surface (.motor true)] })).map
        (fun t => (t.fault, t.out.ok, t.wire.outgoing, t.inputs))
      = some (.none, some true, [0x00#8, 0x00#8, 0x01#8, 0x00#8, 0x00#8, 0x00#8, 0x00#8, 0x00#8, 0x00#8, 0x00#8, 0x00#8, 0x00#8, 0x00#8, 0x00#8, 0x68#8], []) := by
  decide +kernel

/-- 60_exceptions R201. -/
theorem test_faultCodes :
    [FaultKind.none, .transportError, .frameTooShort, .unknownCommand, .refused, .responseUnmarked, .responseShape].map
        faultCode
      = [0#3, 1#3, 2#3, 3#3, 4#3, 5#3, 6#3] := by decide

/-- The transport events (log 25). -/
theorem test_transport_events :
    (after (step { State.reset with inputs := [.transport .opened] })).map (fun t => t.wire.isOpen) = some true
      ∧ (after (step { quiet with inputs := [.transport .closed] })).map (fun t => t.wire.isOpen) = some false
      ∧ (after (step { talking 0x00#8 goodAck with inputs := [.transport .flushed] })).map (fun t => t.wire.incoming)
        = some [] := by
  decide +kernel

/-! ## Every statement's hypotheses can be met -/

theorem witness_SingleByteChange : (0x00#8 : Byte) ≠ 0x01#8 := by decide

theorem witness_ChecksumIsLinear : [0x01#8, 0x02#8].length = ([0xFF#8, 0x00#8] : List Byte).length := rfl

theorem witness_ChecksumOp : quiet.phase = .idle := rfl

theorem witness_FrameLengthTable : 0 < 256 ∧ 255 < 256 := by decide

theorem witness_FrameLengthOp :
    quiet.phase = .idle ∧ (0 : Int) = (0x00#8 : Byte).toNat ∧ (255 : Int) = (0xFF#8 : Byte).toNat
      ∧ ((-1 : Int) < 0 ∨ (255 : Int) < -1) ∧ ((256 : Int) < 0 ∨ (255 : Int) < 256) := by decide

theorem witness_ResponseCode : respCode 0x63#8 = some 0x73#8 ∧ respCode 0x00#8 = some 0x10#8 ∧ respCode 0x0F#8 = none := by
  decide

theorem witness_Discriminator :
    (decodePass false [0xAA#8, 0x55#8, 0x71#8, 0x01#8, 0x01#8, 0xDE#8]).fault = .none ∧ (decodePass false [0x71#8, 0x01#8, 0x07#8, 0x03#8]).fault = .none := by
  decide +kernel

theorem witness_PassFaults :
    (decodePass false [0x71#8, 0x01#8, 0x07#8]).fault = .frameTooShort ∧ (decodePass false [0x71#8, 0x01#8, 0x07#8, 0x03#8]).fault ≠ .frameTooShort := by
  decide +kernel

theorem witness_PassIgnores : (decodePass true [0x71#8, 0x01#8, 0x07#8, 0x03#8]).fault = .none := by decide +kernel

theorem witness_StrictMode :
    logicalCommand [0xAA#8, 0x55#8] = none
      ∧ (logicalCommand [0x0F#8] = some 0x0F#8 ∧ family 0x0F#8 = .other)
      ∧ (logicalCommand [0x73#8] = some 0x73#8 ∧ family 0x73#8 ≠ .other) := by decide +kernel

theorem witness_Need :
    (need [0x00#8] = some 15 ∧ logicalCommand [0x00#8] = some 0x00#8)
      ∧ (need [0xAA#8, 0x55#8, 0x40#8] = some 6 ∧ logicalCommand [0xAA#8, 0x55#8, 0x40#8] = some 0x40#8)
      ∧ (need [0x10#8] = some 15 ∧ logicalCommand [0x10#8] = some 0x10#8) := by decide +kernel

theorem witness_DecodeOpLoads :
    quiet.phase = .idle ∧ ([0x07#8] : List Byte).length = payloadSize (shapeOf 0x71#8)
      ∧ (quiet.cfg.strictUnknown = false ∨ family 0x71#8 ≠ .other) ∧ (0x71#8 : Byte) ≠ 0xAA#8 := by decide +kernel

theorem witness_DecodeOpFault : quiet.phase = .idle ∧ (decodePass quiet.cfg.strictUnknown []).fault ≠ .none := by decide +kernel

theorem witness_EncodeOp :
    quiet.phase = .idle ∧ motorOnArg.wellFormed = true
      ∧ FrameArg.wellFormed ⟨0xAA, some 255, some 0x71, 255, .i2cWrregResp, .raw [0x01#8], 255⟩ = true
      ∧ FrameArg.wellFormed ⟨0x40, none, none, 0, .readTrigger, .trigger 255, 0⟩ = true
      ∧ FrameArg.wellFormed ⟨0xAA, some 0x55, some 0x50, 0, .motorStatus, .motorStatus (-2147483648) 2147483647 0 255 0 1, 0⟩ = true
      ∧ FrameArg.wellFormed ⟨0xAA, some 0x55, some 0x51, 0, .otherStatus, .otherStatus 4294967295 (-1) 0 255 0 1, 0⟩ = true
      ∧ FrameArg.wellFormed ⟨0xAA, some 0x55, some 0x53, 0, .pidRbPos, .pid 4294967295 0 1 255 0 1, 0⟩ = true := by decide +kernel

theorem witness_EncodeOpRefuses :
    quiet.phase = .idle
      ∧ Option.map (fun c => shapeOf (byteOf c)) (FrameArg.command ⟨0, none, none, 0, .motorStatus, .raw [], 0⟩)
        ≠ some .motorStatus
      ∧ (PayloadArg.raw []).toBytes.length ≠ payloadSize .settings
      ∧ (some (0 : Int)).isSome ≠ ((0 : Int) == 0xAA)
      ∧ (none : Option Int).isSome ≠ ((0xAA : Int) == 0xAA)
      ∧ (∃ v : Int, (FrameArg.mk 0xAA (some 256) (some 0) 0 .settings (.settings 0 0 0) 0).magic2 = some v ∧ (v < 0 ∨ 255 < v))
      ∧ (∃ w ∈ [(0 : Int), 0, 2147483648], w < -2147483648 ∨ 2147483647 < w)
      ∧ (∃ w ∈ [(0 : Int), -2147483649], w < -2147483648 ∨ 2147483647 < w)
      ∧ (∃ w ∈ [(0 : Int), -1, 0], w < 0 ∨ 255 < w)
      ∧ (∃ w ∈ [(4294967296 : Int), 0, 0], w < 0 ∨ 4294967295 < w)
      ∧ (FrameArg.mk 0xAA (some 0) (some 0x50) 0 .motorStatus (.pid 0 0 0 0 0 0) 0).shape ≠ .pidRbSpeed
      ∧ (FrameArg.mk 0xAA (some 0) (some 0x71) 0 .i2cWrregResp (.trigger 0) 0).shape ≠ .readTrigger :=
  ⟨rfl, by decide, by decide, by decide, by decide, ⟨256, rfl, by decide⟩, by decide, by decide, by decide, by decide,
    by decide, by decide⟩

theorem witness_EncodeAfterDecode :
    quiet.phase = .idle ∧ ∃ t, exec (.decode [0x71#8, 0x01#8, 0x07#8, 0x03#8]) quiet = .next t ∧ t.fault = .none :=
  ⟨rfl, _, rfl, by decide +kernel⟩

theorem witness_DecodeAfterEncode :
    quiet.phase = .idle ∧ (talking 0x00#8 []).phase = .idle
      ∧ Frame.wellFormed ⟨0x71#8, none, none, 0x01#8, .i2cWrregResp, [0x07#8], 0x03#8⟩ = true
      ∧ Frame.cmd ⟨0x71#8, none, none, 0x01#8, .i2cWrregResp, [0x07#8], 0x03#8⟩ = some 0x71#8
      ∧ (quiet.cfg.strictUnknown = false ∨ family 0x71#8 ≠ .other) := by decide +kernel

theorem witness_InstructionsSurvive :
    wellFormed (.i2cWrregResp ⟨.request, 0x01#8⟩ [0x07#8] 0x03#8) = true
      ∧ wellFormed (.otherReq 0xFF#8 0x01#8 ⟨0#32, 0#32, 0#32⟩ 0x00#8) = true
      ∧ wellFormed (.otherResp 0x55#8 0xAA#8 0x01#8 ⟨0#32, 0#32, 0#32⟩ 0x00#8) = true
      ∧ wellFormed (.setTarget 256) = true := by decide +kernel

theorem witness_WireRow :
    wellFormed (.rd40 ⟨.request, 0x01#8⟩ 0x00#8 0xF5#8) = true
      ∧ encode (.rd40 ⟨.request, 0x01#8⟩ 0x00#8 0xF5#8) = .frame [0x40#8, 0x01#8, 0x00#8, 0xF5#8] := by decide +kernel

theorem witness_SettingsRows : (talking 0x00#8 []).phase = .idle := rfl

theorem witness_StatusReadRows : (talking 0x01#8 []).phase = .idle := rfl

theorem witness_ReadbackRows : (talking 0x02#8 []).phase = .idle := rfl

theorem witness_I2cRows :
    quiet.phase = .idle ∧ ([0x01#8] : List Byte).length = 1 ∧ ([0x50#8, 0x04#8] : List Byte).length = 2
      ∧ [0x50#8, 0x02#8, 0x10#8, 0x00#8, 0x04#8].length = 5 ∧ (List.replicate 22 (0x00#8 : Byte)).length = 22 := by decide

theorem witness_FallbackRows :
    quiet.phase = .idle ∧ quiet.cfg.strictUnknown = false ∧ family 0x0F#8 = .other ∧ (0x0F#8 : Byte) ≠ 0xAA#8
      ∧ family 0xAA#8 = .other := by decide +kernel

theorem witness_FallbackRowsStrict :
    (strict quiet).phase = .idle ∧ (strict quiet).cfg.strictUnknown = true
      ∧ (family 0xFF#8 = .other ∧ (0xFF#8 : Byte) ≠ 0xAA#8) ∧ family 0xAA#8 = .other := by decide +kernel

theorem witness_SetTarget :
    quiet.phase = .idle ∧ (0 : Int) = (0x00#8 : Byte).toNat ∧ (255 : Int) = (0xFF#8 : Byte).toNat
      ∧ ((-1 : Int) < 0 ∨ (255 : Int) < -1) ∧ ((256 : Int) < 0 ∨ (255 : Int) < 256) := by decide

theorem witness_SendSettingWrites :
    quiet.phase = .idle ∧ quiet.targetId = some 0x05#8 ∧ (0x24#8 : Byte) ≠ 0xAA#8
      ∧ (family 0x24#8 = .reqSet ∨ family 0x24#8 = .reqCtl ∨ family 0x24#8 = .other)
      ∧ quiet.wire.writeAnswer = .accept := by decide +kernel

theorem witness_SendSettingReports :
    (raising 15).phase = .idle ∧ (raising 15).targetId = some 0x00#8 ∧ (0x0F#8 : Byte) ≠ 0xAA#8
      ∧ (family 0x0F#8 = .reqSet ∨ family 0x0F#8 = .reqCtl ∨ family 0x0F#8 = .other)
      ∧ (raising 15).wire.writeAnswer = .raise 15 := by decide +kernel

theorem witness_SendSettingRefused :
    { quiet with targetId := none }.phase = .idle ∧ ((-1 : Int) < 0 ∧ 255 < (256 : Int))
      ∧ ((0x1E : Int) = (0x1E#8 : Byte).toNat ∧ family 0x1E#8 ≠ .reqSet ∧ family 0x1E#8 ≠ .reqCtl ∧ family 0x1E#8 ≠ .other)
      ∧ (∃ x ∈ [(0 : Int), 2147483648, 0], x < -2147483648 ∨ 2147483647 < x) := by decide +kernel

theorem witness_VerifyReports :
    (talking 0x00#8 goodAck).phase = .idle
      ∧ ((talking 0x00#8 goodAck).wire.read (frameLength 0x10#8)).1
        = some (0xAA#8 :: 0x55#8 :: 0x10#8 :: 0x00#8 :: (settingsBytes ⟨1#32, 0#32, 0#32⟩ ++ [0x9A#8]))
      ∧ shapeOf 0x10#8 = .settings
      ∧ ((talking 0x00#8 goodAck).cfg.strictUnknown = false ∨ family 0x10#8 ≠ .other) := by decide +kernel

theorem witness_VerifyOutcomes :
    (talking 0x00#8 goodAck).phase = .idle ∧ (raising 0).phase = .idle ∧ ((-1 : Int) < 0 ∧ 255 < (256 : Int)) := by decide

theorem witness_VerifyNeverConfirms :
    ∃ t t', (talking 0x00#8 goodAck).phase = .idle ∧ (0x9A#8 : Byte) ≠ 0x9B#8 ∧ 2 ≤ goodAck.dropLast.length
      ∧ ((talking 0x00#8 goodAck).wire.read (frameLength 0x10#8)).1 = some (goodAck.dropLast ++ 0x9A#8 :: [])
      ∧ ((talking 0x00#8 (goodAck.dropLast ++ [0x9B#8])).wire.read (frameLength 0x10#8)).1
        = some (goodAck.dropLast ++ 0x9B#8 :: [])
      ∧ exec (.verifySettingResponse (0x10#8 : Byte).toNat 1 0 0)
          (talking 0x00#8 goodAck) = .next t
      ∧ exec (.verifySettingResponse (0x10#8 : Byte).toNat 1 0 0)
          (talking 0x00#8 (goodAck.dropLast ++ [0x9B#8])) = .next t'
      ∧ t.out.ok = some true :=
  ⟨_, _, rfl, by decide, by decide, by decide +kernel, by decide +kernel, rfl, rfl, by decide +kernel⟩

theorem witness_RequestStatusReturns :
    (talking 0x01#8 motorReadback).phase = .idle ∧ (talking 0x01#8 motorReadback).targetId = some 0x01#8
      ∧ family 0x40#8 = .reqRd ∧ (talking 0x01#8 motorReadback).wire.writeAnswer = .accept
      ∧ [0x10#8, 0x27#8, 0x00#8, 0x00#8, 0x5F#8, 0xEC#8, 0xFF#8, 0xFF#8, 0x7B#8, 0x00#8, 0x00#8, 0x00#8, 0x01#8, 0x01#8, 0x00#8].length = 15
      ∧ ((talking 0x01#8 motorReadback).wire.read 20).1
        = some (0xAA#8 :: 0x55#8 :: (0x40#8 + 0x10#8) :: 0x01#8
            :: ([0x10#8, 0x27#8, 0x00#8, 0x00#8, 0x5F#8, 0xEC#8, 0xFF#8, 0xFF#8, 0x7B#8, 0x00#8, 0x00#8, 0x00#8, 0x01#8, 0x01#8, 0x00#8] ++ [0x8A#8])) := by decide +kernel

theorem witness_I2cExchangeReturns :
    (talking 0x01#8 [0xAA#8, 0x55#8, 0x73#8, 0x01#8, 0x01#8, 0x91#8]).phase = .idle
      ∧ (talking 0x01#8 [0xAA#8, 0x55#8, 0x73#8, 0x01#8, 0x01#8, 0x91#8]).targetId = some 0x01#8
      ∧ family 0x63#8 = .reqI2c ∧ (List.replicate 22 (0x00#8 : Byte)).length = payloadSize (shapeOf 0x63#8)
      ∧ (talking 0x01#8 [0xAA#8, 0x55#8, 0x73#8, 0x01#8, 0x01#8, 0x91#8]).wire.writeAnswer = .accept
      ∧ ([0x01#8] : List Byte).length = payloadSize (shapeOf (0x63#8 + 0x10#8))
      ∧ ((talking 0x01#8 [0xAA#8, 0x55#8, 0x73#8, 0x01#8, 0x01#8, 0x91#8]).wire.read (4 + ([0x01#8] : List Byte).length + 1)).1
        = some (0xAA#8 :: 0x55#8 :: (0x63#8 + 0x10#8) :: 0x01#8 :: ([0x01#8] ++ [0x91#8])) := by decide +kernel

theorem witness_RequestAndResponseFaults :
    ((raising 2).phase = .idle ∧ (raising 2).targetId = some 0x00#8 ∧ family 0x43#8 = .reqRd
        ∧ (raising 2).wire.writeAnswer = .raise 2)
      ∧ (quiet.phase = .idle ∧ quiet.targetId = some 0x05#8 ∧ quiet.wire.writeAnswer = .accept)
      ∧ (family 0x60#8 = .reqI2c ∧ (List.replicate 5 (0xFF#8 : Byte)).length = payloadSize (shapeOf 0x60#8)) := by decide +kernel

theorem witness_StatusAndI2cRefused :
    quiet.phase = .idle ∧ { quiet with targetId := none }.targetId = none ∧ (0x3F : Int) < 0x40 ∧ (0x43 : Int) < 0x44
      ∧ (0x5F : Int) < 0x60 ∧ (0x63 : Int) < 0x64
      ∧ ([] : List Byte).length ≠ payloadSize (shapeOf (BitVec.ofInt 8 0x62)) := by decide +kernel

theorem witness_Refusal : ∃ t, exec (.setTarget 256) quiet = .next t ∧ t.fault = .refused := ⟨_, rfl, by decide +kernel⟩

theorem witness_Busy : { quiet with phase := .write }.phase ≠ .idle := by decide

theorem witness_FaultEnds : ∃ t, exec (.decode []) quiet = .next t ∧ t.faulted :=
  ⟨_, rfl, by decide +kernel, by decide +kernel⟩

theorem witness_Exchanges :
    (∃ t, exec (.sendSetting 0x00 1 0 0) quiet = .next t)
      ∧ ∃ t, exec (.checksum []) quiet = .next t ∧ (∀ c a b d, Instr.checksum [] ≠ .sendSetting c a b d) :=
  ⟨⟨_, rfl⟩, _, rfl, fun _ _ _ _ h => by cases h⟩

theorem witness_OnlySetTarget :
    ∃ t, step (quiet.issue (.op 4#4 [.int 255])) = .next t ∧ t.targetId ≠ (quiet.issue (.op 4#4 [.int 255])).targetId :=
  ⟨_, rfl, by decide +kernel⟩

theorem witness_NoOperationReads :
    SamePersistent quiet { quiet with tx := [0x01#8], c := 0xFF#8, pos := 3 } ∧ quiet.phase = .idle
      ∧ (∃ t, exec (.requestStatus 0x40) quiet = .next t)
      ∧ (∃ t, exec (.requestStatus 0x40) { quiet with tx := [0x01#8], c := 0xFF#8, pos := 3 } = .next t)
      ∧ SamePersistent { quiet with inputs := [.surface (.motor true)] } { quiet with inputs := [.surface (.motor true)], pos := 3 }
      ∧ (∃ t, step { quiet with inputs := [.surface (.motor true)] } = .next t)
      ∧ (∃ t, step { quiet with inputs := [.surface (.motor true)], pos := 3 } = .next t)
      ∧ (quiet.issue (.frame [])).inputs = .request (.frame []) :: [] :=
  ⟨⟨rfl, rfl, rfl, rfl⟩, rfl, ⟨_, rfl⟩, ⟨_, rfl⟩, ⟨rfl, rfl, rfl, rfl⟩, ⟨_, rfl⟩, ⟨_, rfl⟩, rfl⟩

theorem witness_StepKeepsLegality :
    (quiet.issue (.frame [0x71#8, 0x01#8, 0x07#8, 0x03#8])).Legal
      ∧ ∃ t, step (quiet.issue (.frame [0x71#8, 0x01#8, 0x07#8, 0x03#8])) = .next t ∧ t.out.consumed = some 4 :=
  ⟨⟨rfl, fun _ => rfl,
      fun _ => ⟨fun _ h => (by cases h), fun _ h => (by cases h), by decide, by decide, by decide, fun _ h => (by cases h)⟩,
      fun _ h => (by cases h)⟩, _, rfl, by decide +kernel⟩

theorem witness_StepRuns :
    (quiet.issue (.op 4#4 [.int 255])).inputs = .request (.op 4#4 [.int 255]) :: [] ∧ decode (.op 4#4 [.int 255]) = .ok (.setTarget 255)
      ∧ decodeTableWord 4 0x4 = some (.setTarget 0) ∧ quiet.inputs = [] := by decide +kernel

theorem witness_StepOnARequest :
    ((quiet.issue (.frame [0xAA#8])).inputs = .request (.frame [0xAA#8]) :: []
        ∧ decode (.frame [0xAA#8]) = .error .frameTooShort)
      ∧ ((quiet.issue (.op 9#4 [])).inputs = .request (.op 9#4 []) :: [] ∧ 9 ≤ (9#4 : BitVec 4).toNat)
      ∧ ((quiet.issue (.op 4#4 [.bytes []])).inputs = .request (.op 4#4 [.bytes []]) :: []
        ∧ ∃ e, decode (.op 4#4 [.bytes []]) = .error e) :=
  ⟨by decide +kernel, by decide, rfl, _, rfl⟩

theorem witness_WirePhysicalWire :
    (-2100000000 ≤ (2100000000 : Int) ∧ (2100000000 : Int) ≤ 2100000000) ∧ (-120000 ≤ (-120000 : Int) ∧ (-120000 : Int) ≤ 120000) := by
  decide

theorem witness_SurfaceWords :
    testConfig.words = defaultSurfaceWords ∧ family testConfig.surface.motor = .reqSet
      ∧ family testConfig.surface.removeProtection = .reqSet ∧ family testConfig.surface.setSpeed = .reqCtl
      ∧ (∀ z : Int, (z : Rat) ≠ 1 / 2) := by
  refine ⟨rfl, by decide +kernel, by decide +kernel, by decide +kernel, fun z h => ?_⟩
  have := congrArg Rat.den h
  revert this
  simp

theorem witness_SurfaceWordUse :
    family testConfig.surface.setRgb = .reqSet ∧ family testConfig.surface.setSpeedPid = .reqCtl
      ∧ family testConfig.surface.motor = .reqSet := by decide +kernel

theorem witness_SurfaceSetting :
    ∃ u v, { quiet with inputs := [.surface (.motor true)] }.inputs = .surface (.motor true) :: []
      ∧ plan quiet.cfg (.motor true) = some (.setting 0x00#8 0x10#8 1 0 0)
      ∧ exec (.sendSetting (0x00#8 : Byte).toNat 1 0 0) quiet = .next u ∧ u.fault = .none
      ∧ exec (.sendSetting (0x00#8 : Byte).toNat 1 0 0) (raising 0) = .next v ∧ v.fault ≠ .none :=
  ⟨_, _, rfl, by decide +kernel, rfl, by decide +kernel, rfl, by decide +kernel⟩

theorem witness_SurfaceSetting_refused :
    { quiet with inputs := [.surface (.setMode (.finite 2147483648))] }.inputs = .surface (.setMode (.finite 2147483648)) :: []
      ∧ plan quiet.cfg (.setMode (.finite 2147483648)) = none
      ∧ plan quiet.cfg (.setSpeed .nonFinite (.finite 0)) = none := by decide +kernel

theorem witness_SurfaceReads :
    testConfig.i2cMap = defaultFieldMap ∧ testConfig.surface.i2cReadRegister = 0x60#8
      ∧ testConfig.surface.i2cWriteRegister = 0x61#8 ∧ testConfig.surface.i2cReadRaw = 0x62#8
      ∧ testConfig.surface.i2cWriteRaw = 0x63#8
      ∧ plan testConfig (.i2cReadRegister ⟨255, 2, 65535, 16, false, []⟩)
        = some (.i2c 0x60#8 [0xFF#8, 0x02#8, 0xFF#8, 0xFF#8, 0x10#8])
      ∧ plan testConfig (.i2cReadRegister ⟨256, 2, 65535, 16, false, []⟩) = none
      ∧ plan testConfig (.i2cWriteRegister ⟨0, 1, 255, 0, true, List.replicate 16 0xFF#8⟩)
        = some (.i2c 0x61#8 ([0x00#8, 0x01#8, 0xFF#8, 0x00#8, 0x00#8, 0x01#8] ++ List.replicate 16 0xFF#8))
      ∧ plan testConfig (.i2cWriteRegister ⟨0, 0, 0, 0, true, []⟩) = none
      ∧ plan testConfig (.i2cReadRaw ⟨0x50, 0, 0, 16, false, []⟩) = some (.i2c 0x62#8 [0x50#8, 0x10#8])
      ∧ plan testConfig (.i2cReadRaw ⟨0x50, 0, 1, 16, false, []⟩) = none
      ∧ plan testConfig (.i2cWriteRaw ⟨0x50, 0, 0, 1, false, [0x07#8]⟩)
        = some (.i2c 0x63#8 ([0x50#8, 0x00#8, 0x00#8, 0x00#8, 0x01#8, 0x00#8, 0x07#8] ++ List.replicate 15 0x00#8))
      ∧ plan testConfig (.i2cWriteRaw ⟨0x50, 0, 0, 1, false, List.replicate 17 0x00#8⟩) = none
      ∧ { quiet with inputs := [.surface .readMotorStatus] }.inputs = .surface .readMotorStatus :: []
      ∧ { quiet with inputs := [.surface .readPositionPid] }.inputs = .surface .readPositionPid :: [] := by decide +kernel

/-- An addressed read and a register write that end with a result, and one of each way to have none. -/
theorem witness_SurfaceReads_answers :
    (gives (.i2cExchange (0x60#8 : Byte).toNat [0x50#8, 0x02#8, 0x10#8, 0x01#8, 0x04#8]) (talking 0x01#8 registerAnswer)
        = some (.none, some (.raw (registerAnswer.drop 4).dropLast)))
      ∧ gives (.i2cExchange (0x61#8 : Byte).toNat (List.replicate 22 0x00#8))
          (talking 0x01#8 [0xAA#8, 0x55#8, 0x71#8, 0x01#8, 0x01#8, 0xDE#8]) = some (.none, some (.raw [0x01#8]))
      ∧ State.reset.out.result = none
      ∧ (gives (.i2cExchange (0x60#8 : Byte).toNat []) quiet).map Prod.fst = some .refused := by decide +kernel

theorem witness_ReadTakes :
    ∃ w' R, (talking 0x00#8 goodAck).wire.read 4 = (some R, w') ∧ R = [0xAA#8, 0x55#8, 0x10#8, 0x00#8] := ⟨_, _, rfl, by decide +kernel⟩

theorem witness_Closed :
    State.reset.phase = .idle ∧ State.reset.wire.isOpen = false
      ∧ { State.reset with targetId := some 0x01#8 }.targetId = some 0x01#8 ∧ (0x24#8 : Byte) ≠ 0xAA#8
      ∧ (family 0x24#8 = .reqSet ∨ family 0x24#8 = .reqCtl ∨ family 0x24#8 = .other) ∧ family 0x40#8 = .reqRd
      ∧ (family 0x62#8 = .reqI2c ∧ ([0x50#8, 0x04#8] : List Byte).length = payloadSize (shapeOf 0x62#8)) := by
  decide +kernel

end Sys2Proof.Tests
end

section
/-! The settings of the command surface under an arbitrary use of `data1..3` (00_scope R5, 45_scaling_surface R190). Every such
pseudo-operation places at most three wire words; a list padded with zeros to three places the same words, so one lemma about
three words covers all of them. -/

namespace Sys2Proof.Machine

/-! ## Finite arguments -/

@[simp] theorem physRat_finite (q : Rat) : physRat (.finite q) = some q := rfl

@[simp] theorem physInt_intCast (n : Int) : physInt (.finite (n : Rat)) = some n := by
  simp [physInt]

/-! ## Words past the arguments are 0 -/

theorem sourceWord_append_zeros (args : List Int) (m : Nat) (src : WordSource) :
    sourceWord (args ++ List.replicate m 0) src = sourceWord args src := by
  cases src with
  | const w => rfl
  | arg k =>
    rcases Nat.lt_or_ge k args.length with hk | hk
    · exact List.getD_append _ _ _ _ hk
    · calc (args ++ List.replicate m (0 : Int)).getD k 0
        _ = (List.replicate m (0 : Int)).getD (k - args.length) 0 := List.getD_append_right _ _ _ _ hk
        _ = 0 := List.getElem?_getD_replicate_default_eq _ _ _
        _ = args.getD k 0 := (List.getD_eq_default _ _ hk).symm

theorem placedPlan_append_zeros (code : Byte) (use : WordUse) (args : List Int) (m : Nat) :
    placedPlan code use (args ++ List.replicate m 0) = placedPlan code use args := by
  simp only [placedPlan, sourceWord_append_zeros]

theorem placedPlan_pad_one (code : Byte) (use : WordUse) (a : Int) :
    placedPlan code use [a] = placedPlan code use [a, 0, 0] :=
  (placedPlan_append_zeros code use [a] 2).symm

theorem placedPlan_pad_two (code : Byte) (use : WordUse) (a b : Int) :
    placedPlan code use [a, b] = placedPlan code use [a, b, 0] :=
  (placedPlan_append_zeros code use [a, b] 1).symm

/-- A placed setting of a request code is sent exactly where each word that the parameter names fits s32. -/
theorem placedPlan_of_request {code : Byte} (h : family code = .reqSet ∨ family code = .reqCtl) (use : WordUse)
    (args : List Int) :
    placedPlan code use args
      = if ∀ src ∈ [use.data1, use.data2, use.data3],
            -2147483648 ≤ sourceWord args src ∧ sourceWord args src ≤ 2147483647 then
          some (.setting code (code + 0x10#8) (sourceWord args use.data1) (sourceWord args use.data2)
            (sourceWord args use.data3))
        else none := by
  rw [placedPlan, settingPlan_of_request h]
  refine if_congr ?_ rfl rfl
  simp only [Bool.and_eq_true, isS32_iff, List.forall_mem_cons, List.not_mem_nil, false_imp_iff, implies_true, and_true,
    and_assoc]

/-! ## The words that each kind of setting places -/

theorem integerPlan_intCast (code : Byte) (use : WordUse) (n : Int) :
    integerPlan code use (.finite n) = placedPlan code use [n, 0, 0] := by
  rw [integerPlan, physInt_intCast, ← placedPlan_pad_one]

theorem scaledPlan_intCast (code : Byte) (use : WordUse) (scale : Rat) (n : Int) :
    scaledPlan code use scale (.finite n) = placedPlan code use [truncRat (n * scale), 0, 0] := by
  rw [scaledPlan, physInt_intCast, ← placedPlan_pad_one]

theorem bytePlan_intCast (code : Byte) (use : WordUse) (n : Int) :
    bytePlan code use (.finite n) = placedPlan code use [max 0 (min n 255), 0, 0] := by
  rw [bytePlan, physInt_intCast, ← placedPlan_pad_one, ← clampInt_eq n (by decide)]

theorem currentPlan_finite (code : Byte) (use : WordUse) (m : Rat) :
    currentPlan code use (.finite m) = placedPlan code use [wireCurrent m, 0, 0] := by
  rw [currentPlan, physRat_finite, ← placedPlan_pad_one]

theorem targetPlan_finite (code : Byte) (use : WordUse) (scale : Rat → Int) (x m : Rat) :
    targetPlan code use scale (.finite x) (.finite m) = placedPlan code use [scale x, wireCurrent m, 0] := by
  rw [targetPlan, physRat_finite, physRat_finite, ← placedPlan_pad_two]

theorem gainsPlan_finite (code : Byte) (use : WordUse) (p i d : Rat) :
    gainsPlan code use (.finite p) (.finite i) (.finite d)
      = placedPlan code use [wireGain p, wireGain i, wireGain d] := rfl

theorem rgbPlan_intCast (code : Byte) (use : WordUse) (r g b mode light : Int) :
    rgbPlan code use (.finite r) (.finite g) (.finite b) (.finite mode) (.finite light)
      = placedPlan code use [packRgb r g b mode, max 0 (min light 100), 0] := by
  simp only [rgbPlan, physInt_intCast]
  rw [← placedPlan_pad_two, ← clampInt_eq light (by decide)]

/-! ## The statement -/

/-- Settles O56: each row is a placed plan of three wire words, whatever the parameter, and a placed plan of a request code is
known. -/
theorem surfaceWordUseIsAParameter : Obligations.SurfaceWordUseIsAParameter := by
  intro cfg n mode r g b light x m p i d row hrow hfam word
  have hword : word = sourceWord [row.2.2.2.1, row.2.2.2.2.1, row.2.2.2.2.2] := by
    funext src
    match src with
    | .arg 0 | .arg 1 | .arg 2 | .arg (_ + 3) | .const _ => rfl
  have hplan : plan cfg row.1
      = placedPlan row.2.1 row.2.2.1 [row.2.2.2.1, row.2.2.2.2.1, row.2.2.2.2.2] := by
    clear hword word hfam
    revert row
    simp only [List.forall_mem_cons, List.not_mem_nil, false_imp_iff, implies_true, and_true]
    exact ⟨placedPlan_pad_one _ _ _, integerPlan_intCast _ _ n, scaledPlan_intCast _ _ _ n, integerPlan_intCast _ _ n,
      rgbPlan_intCast _ _ r g b mode light, integerPlan_intCast _ _ n, bytePlan_intCast _ _ n,
      integerPlan_intCast _ _ n, integerPlan_intCast _ _ n, targetPlan_finite _ _ wireSpeed x m,
      gainsPlan_finite _ _ p i d, targetPlan_finite _ _ wirePosition x m, gainsPlan_finite _ _ p i d,
      currentPlan_finite _ _ m⟩
  rw [hword, hplan]
  exact placedPlan_of_request hfam _ _

end Sys2Proof.Machine
end

section
/-! The state between operations (10_state R10 to R24): what every operation leaves alone, a busy block, the legal states, and
reset. The ways an instruction can run are those of `Ran`; the ways a step can go are said once in `step_cases`. -/

namespace Sys2Proof.Machine

/-! ## What every operation but SET_TARGET leaves alone -/

/-- From `s` to `t` the parameters, the inputs to come, the target id and the transport's readiness are unchanged. -/
structure Keeps (s t : State) : Prop where
  cfg : t.cfg = s.cfg
  inputs : t.inputs = s.inputs
  targetId : t.targetId = s.targetId
  isOpen : t.wire.isOpen = s.wire.isOpen

theorem Keeps.trans {s t u : State} (h₁ : Keeps s t) (h₂ : Keeps t u) : Keeps s u :=
  ⟨h₂.cfg.trans h₁.cfg, h₂.inputs.trans h₁.inputs, h₂.targetId.trans h₁.targetId, h₂.isOpen.trans h₁.isOpen⟩

theorem refuse_keeps (s : State) : Keeps s s.refuse := ⟨rfl, rfl, rfl, rfl⟩

theorem andThen_keeps {s u : State} {f : State → State} (h : Keeps s u) (hf : u.fault = .none → Keeps u (f u)) :
    Keeps s (u.andThen f) := by
  by_cases h0 : u.fault = .none
  · rw [andThen_none h0]; exact h.trans (hf h0)
  · rwa [andThen_fault h0]

theorem write_isOpen (w : Transport) (S : List Byte) : (w.write S).2.isOpen = w.isOpen := by
  obtain ⟨_, -, -, -, -, -, h, -⟩ := write_spec w S
  exact h

theorem runPass_keeps (B : List Byte) (s : State) : Keeps s (s.runPass B) := by
  simp only [State.runPass]
  split
  · exact ⟨rfl, rfl, rfl, rfl⟩
  · exact ⟨rfl, rfl, rfl, rfl⟩

theorem decodeBody_keeps (B : List Byte) (s : State) : Keeps s (decodeBody B s) :=
  andThen_keeps (runPass_keeps B s) fun _ => ⟨rfl, rfl, rfl, rfl⟩

theorem sendHalf_keeps (F : Frame) {s : State} (h0 : s.fault = .none) : Keeps s (sendHalf F s) := by
  obtain ⟨hw, -, -, -, -, -, hc, hi, ht, -, -⟩ := sendHalf_post F h0
  exact ⟨hc, hi, ht, by rw [hw, write_isOpen]⟩

theorem receiveHalf_keeps (len : Nat) (sh : Shape) {s : State} (h0 : s.fault = .none) :
    Keeps s (receiveHalf len sh s) := by
  obtain ⟨hw, -, hc, hi, ht, -⟩ := receiveHalf_post len sh h0
  obtain ⟨-, ho, -⟩ := read_spec s.wire len
  exact ⟨hc, hi, ht, by rw [hw, ho]⟩

/-- An instruction keeps these, except that a SET_TARGET, which then completes, writes the target id (10_state R12). -/
theorem Ran.keeps {i : Instr} {s t : State} (r : Ran i s t) :
    Keeps s t ∨ t.completed ∧ ∃ id, i = .setTarget id ∧ t.targetId = some (byteOf id) := by
  have hstart : Keeps s s.start := ⟨rfl, rfl, rfl, rfl⟩
  have hend {u : State} (h : Keeps s.start u) : Keeps s u.finish :=
    (hstart.trans h).trans ⟨rfl, rfl, rfl, rfl⟩
  cases r with
  | targeted id hi h => exact .inr ⟨rfl, id, hi, rfl⟩
  | refused => exact .inl (refuse_keeps s)
  | checksum S h => exact .inl ⟨rfl, rfl, rfl, rfl⟩
  | length n h => exact .inl ⟨rfl, rfl, rfl, rfl⟩
  | encoded F hw h => exact .inl ⟨rfl, rfl, rfl, rfl⟩
  | decoded B h => exact .inl (hend (decodeBody_keeps B _))
  | sent F hw hi h => exact .inl (hend (sendHalf_keeps F rfl))
  | verified len hl a b d hi h =>
    exact .inl (hend (andThen_keeps (receiveHalf_keeps len _ rfl) fun _ => ⟨rfl, rfl, rfl, rfl⟩))
  | exchanged F hw len hl sh result hi h =>
    exact .inl (hend (andThen_keeps (andThen_keeps (sendHalf_keeps F rfl) (receiveHalf_keeps len sh))
      fun _ => ⟨rfl, rfl, rfl, rfl⟩))

/-- An instruction other than SET_TARGET keeps them all. -/
theorem exec_keeps {i : Instr} {s t : State} (h : exec i s = .next t) (hi : ∀ id, i ≠ .setTarget id) : Keeps s t :=
  (ran_of_exec h).keeps.resolve_right fun ⟨_, id, e, _⟩ => hi id e

/-! ## A busy block -/

theorem Ran.eq_refuse_of_busy {i : Instr} {s t : State} (r : Ran i s t) (hb : s.phase ≠ .idle) : t = s.refuse := by
  cases r with
  | refused => rfl
  | checksum _ h | length _ h | decoded _ h | encoded _ _ h | targeted _ _ h | sent _ _ _ h
  | verified _ _ _ _ _ _ h | exchanged _ _ _ _ _ _ _ h => exact absurd h hb

/-- Settles O41: of the ways an instruction can run, every one but the refusal needs an idle block. -/
theorem busyBlockRefusesEveryOperation : Obligations.BusyBlockRefusesEveryOperation := by
  intro i s hb
  obtain ⟨t, e, r⟩ := exec_ran i s
  rw [e, r.eq_refuse_of_busy hb]
  rfl

/-! ## Legal states, by how the last operation ended -/

theorem legal_of_refused {t : State} (hi : t.phase = .idle) (hf : t.fault = .refused) : t.Legal := by
  simp [State.Legal, State.faulted, State.completed, State.readableFrame, hi, hf]

theorem legal_of_faulted {t : State} (hi : t.phase = .idle) (hf : t.fault ≠ .none) (ho : t.out = Outputs.empty) :
    t.Legal := by
  simp [State.Legal, State.completed, State.readableFrame, hi, hf, ho]

/-- A completed operation whose only output is a result that is no Frame, or none. -/
theorem legal_of_result {t : State} {r : Option Result} (hi : t.phase = .idle) (hf : t.fault = .none)
    (ho : t.out = { Outputs.empty with result := r }) (hF : ∀ F, r ≠ some (.frame F))
    (hB : ∀ B, r = some (.bytes B) → 4 ≤ B.length ∧ B.length ≤ maxFrame ∧ t.pos = B.length) : t.Legal := by
  have hnone : t.readableFrame = none := by simp [State.readableFrame, ho, Outputs.empty]
  simp only [State.Legal, hnone, ho]
  refine ⟨hi, fun h => absurd hf h.1, fun _ => ⟨?_, hB, ?_, ?_, ?_, fun F h => absurd h (hF F)⟩, ?_⟩ <;>
    simp [Outputs.empty]

/-- The Frame to read, where the register holds a whole one and an output vouches for it. -/
theorem readableFrame_eq {t : State} {F : Frame} (hf : t.fault = .none) (hreg : t.frame = regOf F)
    (ho : t.out.isResponse.isSome ∨ t.out.ok.isSome ∨ t.out.valid.isSome) : t.readableFrame = some F := by
  rw [State.readableFrame, if_pos ⟨hf, ho⟩, hreg, regFrame_regOf]

/-- A completed DECODE: the register holds the well-formed Frame that the outputs report, and the cursor is at its end. -/
theorem legal_of_decoded {t : State} {F : Frame} {a : Bool} {b c : Option Bool} (hi : t.phase = .idle)
    (hf : t.fault = .none) (hw : F.wellFormed = true) (hreg : t.frame = regOf F)
    (hpos : t.pos = (frameBytes F).length)
    (ho : t.out = ⟨none, none, some a, b, c, some (frameBytes F).length, some (.frame F)⟩) : t.Legal := by
  have hread : t.readableFrame = some F := readableFrame_eq hf hreg (by simp [ho])
  obtain ⟨h4, h27⟩ := frameBytes_length_bounds hw
  simp only [State.Legal, hread, ho, hpos]
  refine ⟨hi, fun h => absurd hf h.1, fun _ => ⟨?_, ?_, ?_, ?_, ?_, ?_⟩, ?_⟩
  · rintro n ⟨⟩; exact ⟨h4, h27, rfl⟩
  · simp
  · simp
  · simp
  · simp
  · rintro G ⟨⟩; rfl
  · rintro G ⟨⟩; exact hw

/-- A completed receive path: the frame in the register fills the buffer, and there is no result that a codec operation gives. -/
theorem legal_of_received {t : State} {F : Frame} (hi : t.phase = .idle) (hf : t.fault = .none)
    (hw : F.wellFormed = true) (hreg : t.frame = regOf F) (hrx : t.rx.length ≤ maxFrame) (hpos : t.pos = t.rx.length)
    (hv : t.out.ok.isSome ∨ t.out.valid.isSome) (hc : t.out.consumed = none)
    (hres : ∀ r, t.out.result = some r → (∀ G, r ≠ .frame G) ∧ ∀ B, r ≠ .bytes B)
    (htx : t.out.valid.isSome → t.tx.length ≤ maxFrame) (hinv : t.out.valid = some false → t.out.result = none) :
    t.Legal := by
  have hread : t.readableFrame = some F := readableFrame_eq hf hreg (.inr hv)
  refine ⟨hi, fun h => absurd hf h.1, fun _ => ⟨?_, ?_, fun _ => ⟨hrx, hpos⟩, htx, hinv, ?_⟩, ?_⟩
  · simp [hc]
  · exact fun B h => absurd rfl ((hres _ h).2 B)
  · exact fun G h => absurd rfl ((hres _ h).1 G)
  · intro G h
    obtain rfl := Option.some.inj (hread.symm.trans h)
    exact hw

/-! ## Every way an instruction can run ends in a legal state -/

theorem sealBytes_length {F : Frame} (hw : F.wellFormed = true) : (sealBytes F).length = (frameBytes F).length := by
  have := (frameBytes_length_bounds hw).1
  simp only [sealBytes, List.length_append, List.length_dropLast, List.length_singleton]
  omega

theorem decode_legal (B : List Byte) {s : State} (hi : s.phase = .idle) : (decodeBody B s.start).finish.Legal := by
  rw [← runOp_admitted hi]
  by_cases h : (decodePass s.cfg.strictUnknown B).fault = .none
  · obtain ⟨F, -, -, hw, -, e⟩ := decodePass_ok h
    rw [runDecode_ok hi e]
    exact legal_of_decoded rfl rfl hw rfl rfl rfl
  · rw [runDecode_fault hi h]
    exact legal_of_faulted rfl h rfl

theorem encode_legal {F : Frame} (hw : F.wellFormed = true) (s : State) : (encodeBody F s.start).finish.Legal := by
  refine legal_of_result rfl rfl rfl (by simp) ?_
  rintro B ⟨⟩
  obtain ⟨h4, h27⟩ := frameBytes_length_bounds hw
  exact ⟨h4, h27, rfl⟩

theorem send_legal (F : Frame) (s : State) : (sendHalf F s.start).finish.Legal := by
  obtain ⟨-, -, -, -, -, -, -, -, -, -, ho⟩ := sendHalf_post F (s := s.start) rfl
  by_cases h : (sendHalf F s.start).fault = .none
  · exact legal_of_result (r := none) rfl h ho (by simp) (by simp)
  · exact legal_of_faulted rfl h ho

/-- The receive half and a verdict: the verdict is given only on a well-formed frame that fills the buffer, and otherwise no output
is written. -/
theorem receive_legal {len : Nat} {sh : Shape} {u : State} {verdict : State → State} (hl : len ≤ maxFrame)
    (h0 : u.fault = .none) (ho : u.out = Outputs.empty)
    (hv : ∀ (R : List Byte) (F : Frame) (w : Transport) (c : Byte), R.length ≤ maxFrame → F.wellFormed = true →
      (verdict { u with wire := w, rx := R, frame := regOf F, pos := R.length, c := c, phase := .check }).finish.Legal) :
    ((receiveHalf len sh u).andThen verdict).finish.Legal := by
  by_cases h : (receiveHalf len sh u).fault = .none
  · obtain ⟨R, F, -, hR, hw, -, -, -, e⟩ := receiveHalf_completed h0 h
    rw [andThen_none h, e]
    exact hv R F _ _ (hR.trans hl) hw
  · obtain ⟨-, -, -, -, -, -, hout, -⟩ := receiveHalf_post len sh h0
    rw [andThen_fault h]
    exact legal_of_faulted rfl h (hout.trans ho)

theorem verify_legal {len : Nat} (hl : len ≤ maxFrame) (a b d : Int) (s : State) :
    ((receiveHalf len .settings s.start).andThen (verdictOk a b d)).finish.Legal := by
  refine receive_legal hl rfl rfl fun R F w c hR hw => ?_
  exact legal_of_received rfl rfl hw rfl hR rfl (.inl rfl) rfl (by simp [verdictOk, Outputs.empty])
    (by simp [verdictOk, Outputs.empty]) (by simp [verdictOk, Outputs.empty])

theorem exchange_legal {F : Frame} (hF : F.wellFormed = true) {len : Nat} (hl : len ≤ maxFrame) (sh : Shape)
    {result : FrameReg → Option Result}
    (hk : ∀ {G r}, result G = some r → (∀ H, r ≠ .frame H) ∧ ∀ B, r ≠ .bytes B) (s : State) :
    (((sendHalf F s.start).andThen (receiveHalf len sh)).andThen (verdictValid result)).finish.Legal := by
  obtain ⟨-, -, -, htx, -, -, -, -, -, -, ho⟩ := sendHalf_post F (s := s.start) rfl
  by_cases h : (sendHalf F s.start).fault = .none
  · rw [andThen_none h]
    refine receive_legal hl h ho fun R G w c hR hw => ?_
    have hsealed : (sendHalf F s.start).tx.length ≤ maxFrame := by
      rw [htx, sealBytes_length hF]
      exact (frameBytes_length_bounds hF).2
    refine legal_of_received rfl h hw rfl hR rfl (.inr rfl) ?_ ?_ (fun _ => hsealed) ?_
    · simp [verdictValid, ho, Outputs.empty]
    · intro r hr
      simp only [State.finish_out, verdictValid] at hr
      split at hr
      · exact hk hr
      · cases hr
    · intro hv
      simp only [State.finish_out, verdictValid, Option.some.injEq] at hv ⊢
      simp [hv]
  · rw [andThen_fault h, andThen_fault h]
    exact legal_of_faulted rfl h ho

theorem Ran.legal {i : Instr} {s t : State} (r : Ran i s t) (hs : s.phase = .idle) : t.Legal := by
  cases r with
  | refused => exact legal_of_refused hs rfl
  | checksum S h => exact legal_of_result rfl rfl rfl (by simp) (by simp)
  | length n h => exact legal_of_result rfl rfl rfl (by simp) (by simp)
  | decoded B h => exact decode_legal B h
  | encoded F hw h => exact encode_legal hw s
  | targeted id hi h => exact legal_of_result (r := none) rfl rfl rfl (by simp) (by simp)
  | sent F hw hi h => exact send_legal F s
  | verified len hl a b d hi h => exact verify_legal hl a b d s
  | exchanged F hw len hl sh result hi h =>
    rcases hi with ⟨-, rfl⟩ | ⟨-, rfl⟩
    · exact exchange_legal hw hl sh statusResult_kind s
    · exact exchange_legal hw hl sh i2cResult_kind s

theorem exec_legal {i : Instr} {s t : State} (h : exec i s = .next t) (hs : s.phase = .idle) : t.Legal :=
  (ran_of_exec h).legal hs

/-- Settles O42: a faulted instruction was not refused, so it ran from an idle block to a legal state; and it kept everything but its
own registers and the wire's streams, since SET_TARGET, which writes the target id, does not fault. -/
theorem faultEndsTheOperationAlone : Obligations.FaultEndsTheOperationAlone := by
  intro i s t h hfault
  have r := ran_of_exec h
  have hs : s.phase = .idle := by
    by_contra hb
    rw [r.eq_refuse_of_busy hb] at hfault
    exact hfault.2 rfl
  obtain ⟨hphase, hout, -⟩ := r.legal hs
  have hk : Keeps s t := r.keeps.resolve_right fun ⟨hdone, _⟩ => hfault.1 hdone
  exact ⟨hout hfault, hphase, hk.targetId, hk.isOpen, hk.cfg, hk.inputs⟩

/-! ## The ways a step can go -/

/-- The state was reached by refusals and by instructions other than SET_TARGET: what a step runs without the host having asked for
that instruction by its own request. -/
inductive RanOthers : State → State → Prop
  | refused (s : State) : RanOthers s s.refuse
  | instr {i : Instr} {s t : State} (hi : ∀ id, i ≠ .setTarget id) (h : exec i s = .next t) : RanOthers s t
  | seq {s u t : State} (h₁ : RanOthers s u) (h₂ : RanOthers u t) : RanOthers s t

theorem RanOthers.keeps {s t : State} (h : RanOthers s t) : Keeps s t := by
  induction h with
  | refused s => exact refuse_keeps s
  | instr hi h => exact exec_keeps h hi
  | seq _ _ ih₁ ih₂ => exact ih₁.trans ih₂

theorem RanOthers.legal {s t : State} (h : RanOthers s t) (hs : s.phase = .idle) : t.Legal := by
  induction h with
  | refused s => exact legal_of_refused hs rfl
  | instr _ h => exact exec_legal h hs
  | seq _ _ ih₁ ih₂ => exact ih₂ (ih₁ hs).1

/-- A request is executed, or is no instruction: refused, or put through the codec's pass. -/
theorem runRequest_cases {r : Request} {s t : State} (h : runRequest r s = .next t) :
    (∃ i, decode r = .ok i ∧ exec i s = .next t) ∨ RanOthers s t := by
  unfold runRequest at h
  split at h
  · next i e => exact .inl ⟨i, e, h⟩
  · next e _ =>
    obtain rfl : rejectRequest r e s = t := by injection h
    right
    unfold rejectRequest
    split
    · next B _ => exact .instr (i := .decode B) (by simp) rfl
    all_goals exact .refused s

theorem settingExchange_ranOthers (code resp : Byte) (a b d : Int) (s : State) :
    RanOthers s (settingExchange code resp a b d s) := by
  have hsend : RanOthers s (sendSettingState code.toNat a b d s) :=
    .instr (i := .sendSetting code.toNat a b d) (by simp) rfl
  unfold settingExchange
  by_cases h : (sendSettingState code.toNat a b d s).fault = .none
  · rw [andThen_none h]
    exact hsend.seq (.instr (i := .verifySettingResponse resp.toNat a b d) (by simp) rfl)
  · rwa [andThen_fault h]

theorem surfaceState_ranOthers (op : SurfaceOp) (s : State) : RanOthers s (surfaceState op s) := by
  unfold surfaceState
  split
  · next p _ =>
    cases p with
    | setting code resp a b d => exact settingExchange_ranOthers code resp a b d s
    | status code => exact .instr (i := .requestStatus code.toNat) (by simp) rfl
    | i2c code raw => exact .instr (i := .i2cExchange code.toNat raw) (by simp) rfl
  · exact .refused s

theorem step_of_nil {s : State} (h : s.inputs = []) : step s = .next s := by
  simp only [step, stepBody, h]

theorem step_of_cons {s : State} {inp : Input} {rest : List Input} (h : s.inputs = inp :: rest) :
    step s = runInput inp s.dropInput := by
  simp only [step, stepBody, h]

/-- A step with nothing to take changes nothing; any other takes its input away and executes an instruction that was asked for, runs
others, or lets the channel change (log 1, log 23, log 25). -/
theorem step_cases {s t : State} (h : step s = .next t) :
    s.inputs = [] ∧ t = s
      ∨ (∃ r rest i, s.inputs = .request r :: rest ∧ decode r = .ok i ∧ exec i s.dropInput = .next t)
      ∨ RanOthers s.dropInput t
      ∨ ∃ ev, t = transportEvent ev s.dropInput := by
  cases hin : s.inputs with
  | nil =>
    rw [step_of_nil hin] at h
    exact .inl ⟨rfl, by cases h; rfl⟩
  | cons inp rest =>
    right
    rw [step_of_cons hin] at h
    cases inp with
    | request r =>
      rcases runRequest_cases h with ⟨i, hd, hx⟩ | ho
      · exact .inl ⟨r, rest, i, rfl, hd, hx⟩
      · exact .inr (.inl ho)
    | surface op =>
      cases h
      exact .inr (.inl (surfaceState_ranOthers op _))
    | transport ev =>
      cases h
      exact .inr (.inr ⟨ev, rfl⟩)

/-- What a channel event does, it does to the wire alone. -/
theorem transportEvent_eq (ev : TransportEvent) (s : State) :
    ∃ w, ∀ s' : State, s'.wire = s.wire → transportEvent ev s' = { s' with wire := w } := by
  cases ev with
  | opened => exact ⟨{ s.wire with isOpen := true }, fun s' h => by rw [← h]; rfl⟩
  | closed => exact ⟨{ s.wire with isOpen := false }, fun s' h => by rw [← h]; rfl⟩
  | flushed => exact ⟨{ s.wire with incoming := [] }, fun s' h => by rw [← h]; rfl⟩

/-- Settles O46: an instruction ends in a legal state wherever it starts from an idle block, and legality says nothing of the wire or
the inputs, which are all that other steps change. -/
theorem stepKeepsLegality : Obligations.StepKeepsLegality := by
  intro s t hs h
  rcases step_cases h with ⟨-, rfl⟩ | ⟨_, _, _, -, -, hx⟩ | ho | ⟨ev, rfl⟩
  · exact hs
  · exact exec_legal hx hs.1
  · exact ho.legal hs.1
  · obtain ⟨w, hw⟩ := transportEvent_eq ev s.dropInput
    rw [hw _ rfl]
    exact hs

/-- Settles O44: every other way a step can go keeps the target id. -/
theorem onlySetTargetChangesTheTarget : Obligations.OnlySetTargetChangesTheTarget := by
  intro s t h hne
  rcases step_cases h with ⟨-, rfl⟩ | ⟨r, rest, i, e, hd, hx⟩ | ho | ⟨ev, rfl⟩
  · exact absurd rfl hne
  · rcases (ran_of_exec hx).keeps with hk | ⟨-, id, rfl, ht⟩
    · exact absurd hk.targetId hne
    · exact ⟨r, rest, id, e, hd, ht⟩
  · exact absurd ho.keeps.targetId hne
  · obtain ⟨w, hw⟩ := transportEvent_eq ev s.dropInput
    exact absurd (by rw [hw _ rfl]; rfl) hne

/-! ## Reset -/

/-- Settles O47: reset leaves an idle block without a fault and without an output. -/
theorem resetIsLegal : Obligations.ResetIsLegal :=
  legal_of_result (r := none) rfl rfl rfl (by simp) (by simp)

/-- Settles O48, by the values that the definition of reset writes. -/
theorem resetLeavesTheSpecifiedValues : Obligations.ResetLeavesTheSpecifiedValues :=
  ⟨rfl, rfl, rfl, rfl, rfl, rfl⟩

end Sys2Proof.Machine
end

section
/-! Two runs from states that differ in transient registers alone (10_state R10, R11; 44_exchange R149). The runs are followed
operation by operation: whatever a body reads of `F`, `RX`, `TX`, `pos` or `c` it has written before. -/

namespace Sys2Proof.Machine

/-! ## Alike at one point of an operation -/

/-- Two runs of an operation stand alike: the same persistent state, the same fault, the same outputs. -/
structure Alike (u₁ u₂ : State) : Prop where
  persistent : SamePersistent u₁ u₂
  fault : u₁.fault = u₂.fault
  out : u₁.out = u₂.out

/-- Two runs stand alike after a read: unless one has faulted, the buffer and the Frame register are the same as well. -/
structure AlikeRead (u₁ u₂ : State) : Prop extends Alike u₁ u₂ where
  rx : u₁.fault = .none → u₁.rx = u₂.rx
  frame : u₁.fault = .none → u₁.frame = u₂.frame

theorem SamePersistent.start {s₁ s₂ : State} (h : SamePersistent s₁ s₂) : Alike s₁.start s₂.start := ⟨h, rfl, rfl⟩

theorem SamePersistent.dropInput {s₁ s₂ : State} (h : SamePersistent s₁ s₂) :
    SamePersistent s₁.dropInput s₂.dropInput := by
  obtain ⟨hc, hi, ht, hw⟩ := h
  exact ⟨hc, by simp [hi], ht, hw⟩

/-- Operations that end alike, where the Frame register agrees if an output vouches for it. -/
theorem Alike.sameOutcome {u₁ u₂ : State} (h : Alike u₁ u₂)
    (hF : u₁.fault = .none → u₁.out.isResponse.isSome ∨ u₁.out.ok.isSome ∨ u₁.out.valid.isSome → u₁.frame = u₂.frame) :
    SameOutcome u₁.finish u₂.finish := by
  refine ⟨h.persistent, rfl, rfl, h.fault, fun _ => h.out, ?_⟩
  simp only [State.readableFrame, State.finish_fault, State.finish_out, State.finish_frame, ← h.fault, ← h.out]
  exact ite_congr rfl (fun hread => by rw [hF hread.1 hread.2]) fun _ => rfl

/-- Operations without an output that vouches for a Frame. -/
theorem Alike.sameOutcome_of_noFrame {u₁ u₂ : State} {r : Option Result} (h : Alike u₁ u₂)
    (ho : u₁.out = { Outputs.empty with result := r }) : SameOutcome u₁.finish u₂.finish :=
  h.sameOutcome fun _ hread => by simp [ho, Outputs.empty] at hread

theorem sameOutcome_refuse {s₁ s₂ : State} (h : SamePersistent s₁ s₂) (h₁ : s₁.phase = .idle) (h₂ : s₂.phase = .idle) :
    SameOutcome s₁.refuse s₂.refuse :=
  ⟨h, h₁, h₂, rfl, fun hne => absurd rfl hne, rfl⟩

theorem sameOutcome_runOp {admitted : Bool} {body : State → State} {s₁ s₂ : State} (h : SamePersistent s₁ s₂)
    (h₁ : s₁.phase = .idle) (h₂ : s₂.phase = .idle)
    (hb : SameOutcome (body s₁.start).finish (body s₂.start).finish) :
    SameOutcome (runOp admitted body s₁) (runOp admitted body s₂) := by
  cases admitted with
  | true => rwa [runOp_admitted h₁, runOp_admitted h₂]
  | false => rw [runOp_refused (.inr rfl), runOp_refused (.inr rfl)]; exact sameOutcome_refuse h h₁ h₂

/-! ## The bodies -/

theorem decode_sameOutcome (B : List Byte) {s₁ s₂ : State} (h : SamePersistent s₁ s₂) (h₁ : s₁.phase = .idle)
    (h₂ : s₂.phase = .idle) : SameOutcome (runOp true (decodeBody B) s₁) (runOp true (decodeBody B) s₂) := by
  have ⟨hc, hi, ht, hw⟩ := h
  have hcfg : s₂.cfg = s₁.cfg := hc.symm
  by_cases hf : (decodePass s₁.cfg.strictUnknown B).fault = .none
  · obtain ⟨F, -, -, -, -, e⟩ := decodePass_ok hf
    rw [runDecode_ok h₁ e, runDecode_ok h₂ (hcfg ▸ e)]
    exact ⟨h, rfl, rfl, rfl, fun _ => rfl, rfl⟩
  · rw [runDecode_fault h₁ hf, runDecode_fault h₂ (hcfg ▸ hf), hcfg]
    exact ⟨⟨rfl, hi, ht, hw⟩, rfl, rfl, rfl, fun _ => rfl, by simp [State.readableFrame, hf]⟩

theorem sendHalf_alike (F : Frame) {u₁ u₂ : State} (h : Alike u₁ u₂) (h0 : u₁.fault = .none) :
    Alike (sendHalf F u₁) (sendHalf F u₂) := by
  obtain ⟨hc, hi, ht, hw⟩ := h.persistent
  obtain ⟨w₁, f₁, -, -, -, -, c₁, i₁, t₁, -, o₁⟩ := sendHalf_post F h0
  obtain ⟨w₂, f₂, -, -, -, -, c₂, i₂, t₂, -, o₂⟩ := sendHalf_post F (h.fault ▸ h0)
  exact ⟨⟨by rw [c₁, c₂, hc], by rw [i₁, i₂, hi], by rw [t₁, t₂, ht], by rw [w₁, w₂, hw]⟩, by rw [f₁, f₂, hw],
    by rw [o₁, o₂, h.out]⟩

/-- The receive half reads the wire and the parameters alone. -/
theorem receiveHalf_alike (len : Nat) (sh : Shape) {u₁ u₂ : State} (h : Alike u₁ u₂) (h0 : u₁.fault = .none) :
    AlikeRead (receiveHalf len sh u₁) (receiveHalf len sh u₂) := by
  obtain ⟨⟨hc, hi, ht, hw⟩, hf, ho⟩ := h
  rw [receiveHalf_eq len sh h0, receiveHalf_eq len sh (hf ▸ h0), ← hc, ← hw]
  split
  · exact ⟨⟨⟨rfl, hi, ht, rfl⟩, rfl, ho⟩, by simp, by simp⟩
  · dsimp only
    split
    · exact ⟨⟨⟨rfl, hi, ht, rfl⟩, rfl, ho⟩, fun _ => rfl, fun _ => rfl⟩
    · split
      · exact ⟨⟨⟨rfl, hi, ht, rfl⟩, rfl, ho⟩, fun _ => rfl, fun _ => rfl⟩
      · split
        · exact ⟨⟨⟨rfl, hi, ht, rfl⟩, rfl, ho⟩, fun _ => rfl, fun _ => rfl⟩
        · exact ⟨⟨⟨rfl, hi, ht, rfl⟩, hf, ho⟩, fun _ => rfl, fun _ => rfl⟩

/-- A verdict writes outputs that it computes from the buffer, the Frame register and the outputs. -/
theorem AlikeRead.sameOutcome_verdict {u₁ u₂ : State} (h : AlikeRead u₁ u₂) (g : List Byte → FrameReg → Outputs → Outputs) :
    SameOutcome (u₁.andThen fun u => { u with out := g u.rx u.frame u.out }).finish
      (u₂.andThen fun u => { u with out := g u.rx u.frame u.out }).finish := by
  by_cases h0 : u₁.fault = .none
  · rw [andThen_none h0, andThen_none (h.fault ▸ h0)]
    refine Alike.sameOutcome ⟨h.persistent, h.fault, ?_⟩ fun _ _ => h.frame h0
    simp only [h.rx h0, h.frame h0, h.out]
  · rw [andThen_fault h0, andThen_fault (h.fault ▸ h0)]
    exact h.sameOutcome fun h0' => absurd h0' h0

theorem verifyBody_sameOutcome (len : Nat) (sh : Shape) (a b d : Int) {u₁ u₂ : State} (h : Alike u₁ u₂)
    (h0 : u₁.fault = .none) :
    SameOutcome ((receiveHalf len sh u₁).andThen (verdictOk a b d)).finish
      ((receiveHalf len sh u₂).andThen (verdictOk a b d)).finish :=
  (receiveHalf_alike len sh h h0).sameOutcome_verdict
    fun rx F out => { out with ok := some (flagCheckOk rx F && flagValuesMatch F a b d) }

theorem exchangeBody_sameOutcome (F : Frame) (len : Nat) (sh : Shape) (result : FrameReg → Option Result) {u₁ u₂ : State}
    (h : Alike u₁ u₂) (h0 : u₁.fault = .none) :
    SameOutcome (((sendHalf F u₁).andThen (receiveHalf len sh)).andThen (verdictValid result)).finish
      (((sendHalf F u₂).andThen (receiveHalf len sh)).andThen (verdictValid result)).finish := by
  have hsend := sendHalf_alike F h h0
  have hread : AlikeRead ((sendHalf F u₁).andThen (receiveHalf len sh)) ((sendHalf F u₂).andThen (receiveHalf len sh)) := by
    by_cases hf : (sendHalf F u₁).fault = .none
    · rw [andThen_none hf, andThen_none (hsend.fault ▸ hf)]
      exact receiveHalf_alike len sh hsend hf
    · rw [andThen_fault hf, andThen_fault (hsend.fault ▸ hf)]
      exact ⟨hsend, fun h' => absurd h' hf, fun h' => absurd h' hf⟩
  exact hread.sameOutcome_verdict fun rx G out =>
    { out with
      valid := some (flagCheckOk rx G)
      result := if flagCheckOk rx G then result G else none }

/-! ## The operations, and the inputs of a step -/

section Runs

variable {s₁ s₂ : State} (h : SamePersistent s₁ s₂) (h₁ : s₁.phase = .idle) (h₂ : s₂.phase = .idle)
include h h₁ h₂

/-- The operations whose only output, where they complete, is a result that is no Frame. -/
theorem resultOp_sameOutcome {admitted : Bool} {body : State → State} {r : Option Result}
    (hb : Alike (body s₁.start) (body s₂.start)) (ho : (body s₁.start).out = { Outputs.empty with result := r }) :
    SameOutcome (runOp admitted body s₁) (runOp admitted body s₂) :=
  sameOutcome_runOp h h₁ h₂ (hb.sameOutcome_of_noFrame ho)

theorem sendSetting_sameOutcome (c a b d : Int) :
    SameOutcome (sendSettingState c a b d s₁) (sendSettingState c a b d s₂) := by
  have ⟨_, _, ht, _⟩ := h
  simp only [sendSettingState, ← ht]
  split
  · exact sameOutcome_refuse h h₁ h₂
  · next target _ =>
    obtain ⟨-, -, -, -, -, -, -, -, -, -, ho⟩ :=
      sendHalf_post (requestFrame (byteOf c) target (settingsBytes ⟨wordOf a, wordOf b, wordOf d⟩)) (s := s₁.start) rfl
    exact resultOp_sameOutcome h h₁ h₂ (r := none) (sendHalf_alike _ h.start rfl) ho

theorem verifyState_sameOutcome (c a b d : Int) : SameOutcome (verifyState c a b d s₁) (verifyState c a b d s₂) :=
  sameOutcome_runOp h h₁ h₂ (verifyBody_sameOutcome _ _ a b d h.start rfl)

theorem requestResponse_sameOutcome (admitted : Bool) (cmd : Byte) (p : List Byte) (result : FrameReg → Option Result) :
    SameOutcome (requestResponse admitted cmd p result s₁) (requestResponse admitted cmd p result s₂) := by
  have ⟨_, _, ht, _⟩ := h
  simp only [requestResponse, ← ht]
  split
  · exact sameOutcome_runOp h h₁ h₂ (exchangeBody_sameOutcome _ _ _ result h.start rfl)
  · exact sameOutcome_refuse h h₁ h₂

theorem requestStatus_sameOutcome (c : Int) : SameOutcome (requestStatusState c s₁) (requestStatusState c s₂) := by
  have ⟨hc, _, _, _⟩ := h
  rw [requestStatusState, requestStatusState, hc]
  exact requestResponse_sameOutcome h h₁ h₂ _ _ _ _

theorem exec_next_sameOutcome (i : Instr) :
    ∃ t₁ t₂, exec i s₁ = .next t₁ ∧ exec i s₂ = .next t₂ ∧ SameOutcome t₁ t₂ := by
  cases i
  case checksum S => exact ⟨_, _, rfl, rfl, resultOp_sameOutcome h h₁ h₂ ⟨h, rfl, rfl⟩ rfl⟩
  case frameLength c => exact ⟨_, _, rfl, rfl, resultOp_sameOutcome h h₁ h₂ ⟨h, rfl, rfl⟩ rfl⟩
  case decode B => exact ⟨_, _, rfl, rfl, decode_sameOutcome B h h₁ h₂⟩
  case encode F => exact ⟨_, _, rfl, rfl, resultOp_sameOutcome h h₁ h₂ ⟨h, rfl, rfl⟩ rfl⟩
  case setTarget id =>
    have ⟨hc, hi, _, hw⟩ := h
    exact ⟨_, _, rfl, rfl, resultOp_sameOutcome h h₁ h₂ (r := none) ⟨⟨hc, hi, rfl, hw⟩, rfl, rfl⟩ rfl⟩
  case sendSetting c a b d => exact ⟨_, _, rfl, rfl, sendSetting_sameOutcome h h₁ h₂ c a b d⟩
  case verifySettingResponse c a b d => exact ⟨_, _, rfl, rfl, verifyState_sameOutcome h h₁ h₂ c a b d⟩
  case requestStatus c => exact ⟨_, _, rfl, rfl, requestStatus_sameOutcome h h₁ h₂ c⟩
  case i2cExchange c raw => exact ⟨_, _, rfl, rfl, requestResponse_sameOutcome h h₁ h₂ _ _ raw i2cResult⟩
  all_goals exact ⟨_, _, rfl, rfl, decode_sameOutcome _ h h₁ h₂⟩

theorem exec_sameOutcome {i : Instr} {t₁ t₂ : State} (e₁ : exec i s₁ = .next t₁) (e₂ : exec i s₂ = .next t₂) :
    SameOutcome t₁ t₂ := by
  obtain ⟨u₁, u₂, f₁, f₂, ho⟩ := exec_next_sameOutcome h h₁ h₂ i
  rw [f₁] at e₁
  rw [f₂] at e₂
  injection e₁ with e₁
  injection e₂ with e₂
  exact e₁ ▸ e₂ ▸ ho

theorem runRequest_sameOutcome {r : Request} {t₁ t₂ : State} (e₁ : runRequest r s₁ = .next t₁)
    (e₂ : runRequest r s₂ = .next t₂) : SameOutcome t₁ t₂ := by
  unfold runRequest at e₁ e₂
  cases hd : decode r with
  | ok i =>
    rw [hd] at e₁ e₂
    exact exec_sameOutcome h h₁ h₂ e₁ e₂
  | error e =>
    rw [hd] at e₁ e₂
    cases e₁
    cases e₂
    unfold rejectRequest
    split
    · exact decode_sameOutcome _ h h₁ h₂
    all_goals exact sameOutcome_refuse h h₁ h₂

/-- The verification starts from two states that the send left idle and with the same persistent part. -/
theorem settingExchange_sameOutcome (code resp : Byte) (a b d : Int) :
    SameOutcome (settingExchange code resp a b d s₁) (settingExchange code resp a b d s₂) := by
  have hsend := sendSetting_sameOutcome h h₁ h₂ code.toNat a b d
  have ⟨hp, hi₁, hi₂, hf, _, _⟩ := hsend
  unfold settingExchange
  by_cases h0 : (sendSettingState code.toNat a b d s₁).fault = .none
  · rw [andThen_none h0, andThen_none (hf ▸ h0)]
    exact verifyState_sameOutcome hp hi₁ hi₂ resp.toNat a b d
  · rwa [andThen_fault h0, andThen_fault (hf ▸ h0)]

theorem surfaceState_sameOutcome (op : SurfaceOp) : SameOutcome (surfaceState op s₁) (surfaceState op s₂) := by
  have ⟨hc, _, _, _⟩ := h
  unfold surfaceState
  rw [← hc]
  split
  · next p _ =>
    cases p with
    | setting code resp a b d => exact settingExchange_sameOutcome h h₁ h₂ code resp a b d
    | status code => exact requestStatus_sameOutcome h h₁ h₂ code.toNat
    | i2c code raw => exact requestResponse_sameOutcome h h₁ h₂ _ _ raw i2cResult
  · exact sameOutcome_refuse h h₁ h₂

theorem transportEvent_samePersistent (ev : TransportEvent) :
    SamePersistent (transportEvent ev s₁) (transportEvent ev s₂)
      ∧ (transportEvent ev s₁).phase = .idle ∧ (transportEvent ev s₂).phase = .idle := by
  have ⟨hc, hi, ht, hw⟩ := h
  obtain ⟨w, e⟩ := transportEvent_eq ev s₁
  rw [e _ rfl, e _ hw.symm]
  exact ⟨⟨hc, hi, ht, rfl⟩, h₁, h₂⟩

end Runs

/-- Settles O45: instruction by instruction, and for a step by the input that both states hold. -/
theorem noOperationReadsTransientState : Obligations.NoOperationReadsTransientState := by
  intro s₁ s₂ t₁ t₂ h h₁ h₂
  refine ⟨fun i => exec_sameOutcome h h₁ h₂, fun e₁ e₂ => ?_⟩
  have hdrop := h.dropInput
  have ⟨_, hi, _, _⟩ := h
  cases hin : s₁.inputs with
  | nil =>
    rw [step_of_nil hin] at e₁
    rw [step_of_nil (hi ▸ hin)] at e₂
    cases e₁
    cases e₂
    exact ⟨h, h₁, h₂, by simp⟩
  | cons inp rest =>
    rw [step_of_cons hin] at e₁
    rw [step_of_cons (hi ▸ hin)] at e₂
    cases inp with
    | request r =>
      have ho := runRequest_sameOutcome hdrop h₁ h₂ e₁ e₂
      have ⟨hp, hi₁, hi₂, _⟩ := ho
      exact ⟨hp, hi₁, hi₂, fun _ => ho⟩
    | surface op =>
      cases e₁
      cases e₂
      have ho := surfaceState_sameOutcome hdrop h₁ h₂ op
      have ⟨hp, hi₁, hi₂, _⟩ := ho
      exact ⟨hp, hi₁, hi₂, fun _ => ho⟩
    | transport ev =>
      cases e₁
      cases e₂
      obtain ⟨hp, hi₁, hi₂⟩ := transportEvent_samePersistent hdrop h₁ h₂ ev
      exact ⟨hp, hi₁, hi₂, by simp⟩

end Sys2Proof.Machine
end

section
/-! The transport (20_memory R30 to R44): what an instruction does to the wire, said once as the calls it can make, and what one read
takes from the stream. -/

namespace Sys2Proof.Machine

/-- The four operations that speak on the wire (44_exchange R142). -/
def IsExchange (i : Instr) : Prop :=
  (∃ c a b d, i = .sendSetting c a b d) ∨ (∃ c a b d, i = .verifySettingResponse c a b d)
    ∨ (∃ c, i = .requestStatus c) ∨ (∃ c raw, i = .i2cExchange c raw)

/-- What the calls of one exchange make of the transport: a write of at most a frame, a read, or the one after the other
(20_memory R35, R43). -/
inductive WireUse (w : Transport) : Transport → Prop
  | wrote (S : List Byte) (hS : S.length ≤ maxFrame) : WireUse w (w.write S).2
  | read (n : Nat) : WireUse w (w.read n).2
  | wroteThenRead (S : List Byte) (hS : S.length ≤ maxFrame) (n : Nat) : WireUse w ((w.write S).2.read n).2

theorem runPass_wire (B : List Byte) (s : State) : (s.runPass B).wire = s.wire := by
  simp only [State.runPass]
  split
  · rfl
  · rfl

/-- Where the next phase leaves the wire alone, so does the operation up to it. -/
theorem andThen_wire {s : State} {f : State → State} (hf : ∀ u, (f u).wire = u.wire) : (s.andThen f).wire = s.wire := by
  by_cases h0 : s.fault = .none
  · rw [andThen_none h0, hf]
  · rw [andThen_fault h0]

@[simp] theorem State.reportPass_wire (s : State) : s.reportPass.wire = s.wire := rfl
@[simp] theorem verdictOk_wire (a b d : Int) (s : State) : (verdictOk a b d s).wire = s.wire := rfl
@[simp] theorem verdictValid_wire (result : FrameReg → Option Result) (s : State) :
    (verdictValid result s).wire = s.wire := rfl

theorem decodeBody_wire (B : List Byte) (s : State) : (decodeBody B s).wire = s.wire :=
  (andThen_wire State.reportPass_wire).trans (runPass_wire B s)

theorem sealBytes_length_le {F : Frame} (hw : F.wellFormed = true) : (sealBytes F).length ≤ maxFrame :=
  sealBytes_length hw ▸ (frameBytes_length_bounds hw).2

theorem sendHalf_wireUse {F : Frame} (hw : F.wellFormed = true) {s : State} (h0 : s.fault = .none) :
    WireUse s.wire (sendHalf F s).wire := by
  rw [(sendHalf_post F h0).1]
  exact .wrote _ (sealBytes_length_le hw)

theorem receiveHalf_wire (len : Nat) (sh : Shape) {s : State} (h0 : s.fault = .none) :
    (receiveHalf len sh s).wire = (s.wire.read len).2 := (receiveHalf_post len sh h0).1

/-- A request and its response: the write alone where it raised, else the write and the read. -/
theorem exchange_wireUse {F : Frame} (hw : F.wellFormed = true) (len : Nat) (sh : Shape) {s : State}
    (h0 : s.fault = .none) : WireUse s.wire ((sendHalf F s).andThen (receiveHalf len sh)).wire := by
  by_cases hs : (sendHalf F s).fault = .none
  · rw [andThen_none hs, receiveHalf_wire len sh hs, (sendHalf_post F h0).1]
    exact .wroteThenRead _ (sealBytes_length_le hw) len
  · rw [andThen_fault hs]
    exact sendHalf_wireUse hw h0

/-- An instruction leaves the wire as it was, or is an exchange operation and makes the calls of one exchange. -/
theorem Ran.wire_cases {i : Instr} {s t : State} (r : Ran i s t) :
    t.wire = s.wire ∨ IsExchange i ∧ WireUse s.wire t.wire := by
  cases r with
  | refused => exact .inl rfl
  | checksum S h => exact .inl rfl
  | length n h => exact .inl rfl
  | encoded F hw h => exact .inl rfl
  | targeted id hi h => exact .inl rfl
  | decoded B h => exact .inl (decodeBody_wire B s.start)
  | sent F hw hi h => exact .inr ⟨.inl hi, sendHalf_wireUse hw (s := s.start) rfl⟩
  | verified len hl a b d hi h =>
    refine .inr ⟨.inr (.inl hi), ?_⟩
    rw [State.finish_wire, andThen_wire (verdictOk_wire a b d), receiveHalf_wire len _ rfl]
    exact .read len
  | exchanged F hw len hl sh result hi h =>
    refine .inr ⟨.inr (.inr (hi.imp And.left And.left)), ?_⟩
    rw [State.finish_wire, andThen_wire (verdictValid_wire result)]
    exact exchange_wireUse hw len sh (s := s.start) rfl

/-- At most one call of each kind, the readiness kept, and at most a frame appended to what is on the bus. -/
structure OneCallEach (w w' : Transport) : Prop where
  isOpen : w'.isOpen = w.isOpen
  writeCalls : w'.writeCalls ≤ w.writeCalls + 1
  readCalls : w'.readCalls ≤ w.readCalls + 1
  outgoing : ∃ S : List Byte, S.length ≤ maxFrame ∧ w'.outgoing = w.outgoing ++ S

theorem OneCallEach.refl (w : Transport) : OneCallEach w w :=
  ⟨rfl, Nat.le_succ _, Nat.le_succ _, [], Nat.zero_le _, (List.append_nil _).symm⟩

theorem WireUse.oneCallEach {w w' : Transport} (h : WireUse w w') : OneCallEach w w' := by
  cases h with
  | wrote S hS =>
    obtain ⟨k, hout, -, hwc, hrc, -, hopen, -⟩ := write_spec w S
    exact ⟨hopen, hwc.le, by omega, S.take k, (List.length_take_le' k S).trans hS, hout⟩
  | read n =>
    obtain ⟨hout, hopen, hwc, hrc, -⟩ := read_spec w n
    exact ⟨hopen, by omega, hrc.le, [], Nat.zero_le _, by rw [hout, List.append_nil]⟩
  | wroteThenRead S hS n =>
    obtain ⟨k, hout, -, hwc, hrc, -, hopen, -⟩ := write_spec w S
    obtain ⟨hout', hopen', hwc', hrc', -⟩ := read_spec (w.write S).2 n
    exact ⟨hopen'.trans hopen, by omega, by omega, S.take k, (List.length_take_le' k S).trans hS, hout'.trans hout⟩

/-- Settles O43, by the calls an instruction can make. -/
theorem exchangesMakeAtMostOneWriteAndOneRead : Obligations.ExchangesMakeAtMostOneWriteAndOneRead := by
  intro i s t h
  have hcases := (ran_of_exec h).wire_cases
  have hone : OneCallEach s.wire t.wire := by
    rcases hcases with e | ⟨-, hu⟩
    · rw [e]; exact .refl _
    · exact hu.oneCallEach
  obtain ⟨hopen, hwc, hrc, S, hS, hout⟩ := hone
  refine ⟨hopen, hwc, hrc, ⟨S, hout.symm⟩, ?_, fun hsend hverify hstatus hi2c => ?_⟩
  · rw [hout, List.length_append]
    exact Nat.add_le_add_left hS _
  · rcases hcases with e | ⟨hx, -⟩
    · exact e
    · rcases hx with ⟨c, a, b, d, e⟩ | ⟨c, a, b, d, e⟩ | ⟨c, e⟩ | ⟨c, raw, e⟩
      · exact absurd e (hsend c a b d)
      · exact absurd e (hverify c a b d)
      · exact absurd e (hstatus c)
      · exact absurd e (hi2c c raw)

/-- Settles O59: a read that returns is a delivery of the oldest bytes, as `read_spec` says of every read. -/
theorem readTakesTheOldestBytes : Obligations.ReadTakesTheOldestBytes := by
  intro w w' n R h
  obtain ⟨hout, hopen, -, hcalls, -, hreturned⟩ := read_spec w n
  rw [h] at hout hopen hcalls hreturned
  obtain ⟨hlen, harrivals⟩ := hreturned R rfl
  exact ⟨hlen, harrivals, hout, hopen, hcalls⟩

end Sys2Proof.Machine
end

section
/-! The encodings (30_encoding R50 to R76). What the two decoders make of a frame that carries a command behind a header is said once
for every command, and each row of the opcode table is such a frame. -/

namespace Sys2Proof.Machine

/-! ## What carries a command of a family -/

theorem ne_magic1_of_known {c : Byte} (h : family c ≠ .other) : c ≠ magic1 := by
  rintro rfl
  exact h magic1_not_known

/-- The command may stand behind the header: a request does not begin with the marker byte (30_encoding R57). -/
def Startable (cmd : Byte) (h : Header) : Prop := h.framing = .request → cmd ≠ magic1

theorem startable_of_known {cmd : Byte} (hk : family cmd ≠ .other) (h : Header) : Startable cmd h :=
  fun _ => ne_magic1_of_known hk

theorem frameWith_eq_framedAs (cmd : Byte) (h : Header) (p : List Byte) (k : Byte) :
    frameWith cmd h p k = framedAs cmd (shapeOf cmd) h p k := by
  obtain ⟨_ | m, dev⟩ := h <;> rfl

/-! ## A frame's instruction -/

theorem decodeAfterCommand_layout (fr : Framing) {cmd : Byte} (dev : Byte) {p : List Byte} (k : Byte)
    (hp : p.length = payloadSize (shapeOf cmd)) :
    decodeAfterCommand fr cmd (dev :: (p ++ [k])) = .ok (instrOf cmd ⟨fr, dev⟩ p k) := by
  simp [decodeAfterCommand, ← hp]

theorem decode_frameWith {cmd : Byte} {h : Header} {p : List Byte} (k : Byte) (hs : Startable cmd h)
    (hp : p.length = payloadSize (shapeOf cmd)) :
    decode (.frame (frameBytes (frameWith cmd h p k))) = .ok (instrOf cmd h p k) := by
  obtain ⟨_ | m, dev⟩ := h
  · have hc : cmd ≠ magic1 := hs rfl
    simp only [frameWith, frameBytes_request _ _ _ _ _ hc, decode, decodeFrame, if_neg hc]
    exact decodeAfterCommand_layout _ dev k hp
  · simp only [frameWith, frameBytes_response, decode, decodeFrame, if_true]
    exact decodeAfterCommand_layout _ dev k hp

theorem instrOf_settingsBytes {cmd : Byte} (hs : shapeOf cmd = .settings) (h : Header) (d : SettingsData) (k : Byte) :
    instrOf cmd h (settingsBytes d) k = settingsInstr cmd h d k := by
  simp only [instrOf, hs, settingsView_settingsBytes]

/-- No named row has a code outside the families, so the fallback rows take it (30_encoding R72). -/
theorem settingsRows_lookup_other {cmd : Byte} (h : family cmd = .other) : settingsRows.lookup cmd = none := by
  have hnamed : ∀ row ∈ settingsRows, family row.1 ≠ .other := by
    simp only [settingsRows, List.forall_mem_cons, List.not_mem_nil, false_imp_iff, implies_true, and_true]
    decide
  rw [List.lookup_eq_none_iff]
  intro row hrow
  exact bne_iff_ne.mpr fun e => hnamed row hrow (by rwa [← e])

/-! ## The rows of the opcode table -/

/-- The instruction is the row of the command `cmd`: its frame carries the command behind the header `h`, and is read back as the
instruction. -/
structure RowOf (i : Instr) (cmd : Byte) (h : Header) (p : List Byte) (k : Byte) : Prop where
  frame : wireFrame i = some (frameWith cmd h p k)
  startable : Startable cmd h
  size : p.length = payloadSize (shapeOf cmd)
  instr : instrOf cmd h p k = i

/-- A row of a family. -/
theorem RowOf.known {i : Instr} {cmd : Byte} {h : Header} {p : List Byte} {k : Byte}
    (hf : wireFrame i = some (frameWith cmd h p k)) (hk : family cmd ≠ .other)
    (hp : p.length = payloadSize (shapeOf cmd)) (hi : instrOf cmd h p k = i) : RowOf i cmd h p k :=
  ⟨hf, startable_of_known hk h, hp, hi⟩

/-- A row whose operands are the three words of `SETTINGS`. -/
theorem RowOf.settings {i : Instr} {cmd : Byte} {h : Header} {d : SettingsData} {k : Byte}
    (hf : wireFrame i = some (frameWith cmd h (settingsBytes d) k)) (hsh : shapeOf cmd = .settings)
    (hs : Startable cmd h) (hi : settingsInstr cmd h d k = i) : RowOf i cmd h (settingsBytes d) k :=
  ⟨hf, hs, by rw [hsh]; rfl, by rw [instrOf_settingsBytes hsh, hi]⟩

/-- Every well-formed instruction is a row of the wire table, or a host operation whose request has all its operands. -/
theorem wellFormed_row_or_op {i : Instr} (hw : wellFormed i = true) :
    (∃ cmd h p k, RowOf i cmd h p k) ∨ (wireFrame i = none
      ∧ ∃ sel args, hostRequest i = some (.op sel args) ∧ decode (.op sel args) = .ok i) := by
  cases i
  case set00 h d k | set01 h d k | set02 h d k | set03 h d k | set04 h d k | set05 h d k | set06 h d k | set07 h d k
  | set08 h d k | set09 h d k | set0A h d k | set0B h d k | set0C h d k | set0D h d k | set0E h d k
  | ack10 h d k | ack11 h d k | ack12 h d k | ack13 h d k | ack14 h d k | ack15 h d k | ack16 h d k | ack17 h d k
  | ack18 h d k | ack19 h d k | ack1A h d k | ack1B h d k | ack1C h d k | ack1D h d k | ack1E h d k
  | ctl20 h d k | ctl21 h d k | ctl22 h d k | ctl23 h d k | ctl24 h d k
  | cack30 h d k | cack31 h d k | cack32 h d k | cack33 h d k | cack34 h d k =>
    exact .inl ⟨_, h, _, k, .settings rfl rfl (startable_of_known (by decide) h) rfl⟩
  case rd40 h t k | rd41 h t k | rd42 h t k | rd43 h t k => exact .inl ⟨_, h, _, k, .known rfl (by decide) rfl rfl⟩
  case rb50 h d k =>
    exact .inl ⟨_, h, _, k, .known rfl (by decide) rfl (congrArg (Instr.rb50 h · k) (motorView_motorBytes d))⟩
  case rb51 h d k =>
    exact .inl ⟨_, h, _, k, .known rfl (by decide) rfl (congrArg (Instr.rb51 h · k) (otherView_otherBytes d))⟩
  case rb52 h d k =>
    exact .inl ⟨_, h, _, k, .known rfl (by decide) rfl (congrArg (Instr.rb52 h · k) (pidView_pidBytes d))⟩
  case rb53 h d k =>
    exact .inl ⟨_, h, _, k, .known rfl (by decide) rfl (congrArg (Instr.rb53 h · k) (pidView_pidBytes d))⟩
  case i2cRdregReq h raw k | i2cWrregReq h raw k | i2cRdrawReq h raw k | i2cWrrawReq h raw k
  | i2cRdregResp h raw k | i2cWrregResp h raw k | i2cRdrawResp h raw k | i2cWrrawResp h raw k =>
    exact .inl ⟨_, h, _, k, .known rfl (by decide) (eq_of_beq hw) rfl⟩
  case otherReq c dev d k =>
    obtain ⟨ho, hc⟩ : family c = .other ∧ c ≠ magic1 := by simpa [wellFormed, isFallbackRequest] using hw
    refine .inl ⟨c, ⟨.request, dev⟩, _, k, .settings rfl (shapeOf_other ho) (fun _ => hc) ?_⟩
    simp only [settingsInstr, settingsRows_lookup_other ho]
  case otherResp m c dev d k =>
    have ho : family c = .other := by simpa [wellFormed, isFallbackResponse] using hw
    refine .inl ⟨c, ⟨.response m, dev⟩, _, k, .settings rfl (shapeOf_other ho) (fun e => nomatch e) ?_⟩
    simp only [settingsInstr, settingsRows_lookup_other ho]
  all_goals exact .inr ⟨rfl, _, _, rfl, rfl⟩

/-- Settles O21: a row's frame is read back by `decode_frameWith`, and a host operation's request has every operand written out. -/
theorem instructionsSurviveEncodeAndDecode : Obligations.InstructionsSurviveEncodeAndDecode := by
  intro i hw
  rcases wellFormed_row_or_op hw with ⟨cmd, h, p, k, row⟩ | ⟨hnone, sel, args, hr, hd⟩
  · simp only [encode, row.frame]
    rw [decode_frameWith k row.startable row.size, row.instr]
  · simpa only [encode, hnone, hr, Option.getD_some] using hd

/-! ## What a row does -/

theorem exec_decode (B : List Byte) (s : State) : exec (.decode B) s = .next (runOp true (decodeBody B) s) := rfl

/-- A wire row is one DECODE over its frame's bytes (log 3). -/
theorem exec_of_wireFrame {i : Instr} {F : Frame} (hf : wireFrame i = some F) (s : State) :
    exec i s = exec (.decode (frameBytes F)) s := by
  cases i <;> cases hf <;> rfl

/-- Settles O22: an instruction that is encoded as a frame has that wire frame. -/
theorem wireRowIsDecodeOfItsBytes : Obligations.WireRowIsDecodeOfItsBytes := by
  intro i B s hw he
  rcases wellFormed_row_or_op hw with ⟨cmd, h, p, k, row⟩ | ⟨hnone, sel, args, hr, hd⟩
  · simp only [encode, row.frame, Request.frame.injEq] at he
    rw [exec_of_wireFrame row.frame, he]
  · simp only [encode, hnone, hr, Option.getD_some, reduceCtorEq] at he

/-! ### The outputs on a frame behind a header -/

section Behind

variable {cmd : Byte} {h : Header} (p : List Byte) (k : Byte) (hs : Startable cmd h)
include hs

theorem cmd_frameWith : (frameWith cmd h p k).cmd = some cmd := by
  obtain ⟨_ | m, dev⟩ := h
  · simp [frameWith, Frame.cmd, Frame.isResponse, hs rfl]
  · simp [frameWith, Frame.cmd, Frame.isResponse]

theorem flagIsResponse_frameWith : flagIsResponse (regOf (frameWith cmd h p k)) = isResponseHeader h := by
  obtain ⟨_ | m, dev⟩ := h
  · simp [frameWith, regOf, flagIsResponse, isResponseHeader, hs rfl]
  · simp [frameWith, regOf, flagIsResponse, isResponseHeader]

theorem flagMagicOk_frameWith : flagMagicOk (regOf (frameWith cmd h p k)) = markerOk h := by
  rw [flagMagicOk, flagIsResponse_frameWith p k hs]
  obtain ⟨_ | m, dev⟩ := h
  · rfl
  · rw [Bool.eq_iff_iff]
    simp [frameWith, regOf, isResponseHeader, markerOk, magicTwo]

theorem flagKnown_frameWith : flagKnown (regOf (frameWith cmd h p k)) = (family cmd != .other) := by
  have hcmd : regCommand (regOf (frameWith cmd h p k)) = some cmd := cmd_frameWith p k hs
  rw [flagKnown, hcmd]

theorem frameBytes_frameWith_length : (frameBytes (frameWith cmd h p k)).length = framedSize h p.length := by
  obtain ⟨_ | m, dev⟩ := h
  · simp only [frameWith, frameBytes_request _ _ _ _ _ (hs rfl), framedSize, List.length_cons, List.length_append,
      List.length_nil]
    omega
  · simp only [frameWith, frameBytes_response, framedSize, List.length_cons, List.length_append, List.length_nil]
    omega

end Behind

/-- A wire row whose code the strict test does not turn away completes and loads its frame. -/
theorem exec_wireFrame_loads {i : Instr} {s : State} {cmd : Byte} {h : Header} {p : List Byte} {k : Byte}
    (hi : s.phase = .idle) (hf : wireFrame i = some (frameWith cmd h p k)) (hs : Startable cmd h)
    (hp : p.length = payloadSize (shapeOf cmd)) (ha : accepts s.cfg.strictUnknown cmd) :
    exec i s = .next (loaded (framedAs cmd (shapeOf cmd) h p k) (isResponseHeader h) (markerOk h)
      (family cmd != .other) (framedSize h p.length) s) := by
  have hpass := decodePass_frameBytes (strict := s.cfg.strictUnknown) [] (wellFormed_frameWith (k := k) hs hp)
    fun c hc => Option.some.inj ((cmd_frameWith p k hs).symm.trans hc) ▸ ha
  rw [List.append_nil] at hpass
  rw [exec_of_wireFrame hf, exec_decode, runDecode_ok hi hpass, flagIsResponse_frameWith p k hs,
    flagMagicOk_frameWith p k hs, flagKnown_frameWith p k hs, frameBytes_frameWith_length p k hs, frameWith_eq_framedAs]
  rfl

/-- A row of a family completes whether or not the machine is strict. -/
theorem exec_known_loads {i : Instr} {s : State} {cmd : Byte} {sh : Shape} {h : Header} {p : List Byte} {k : Byte}
    (hi : s.phase = .idle) (hf : wireFrame i = some (frameWith cmd h p k)) (hk : family cmd ≠ .other)
    (hsh : shapeOf cmd = sh) (hp : p.length = payloadSize sh) :
    exec i s = .next (loaded (framedAs cmd sh h p k) (isResponseHeader h) (markerOk h) true
      (framedSize h (payloadSize sh)) s) := by
  subst hsh
  rw [exec_wireFrame_loads hi hf (startable_of_known hk h) hp (.inr hk), bne_iff_ne.mpr hk, hp]

/-- Settles O23, row by row: each code is of a family and of shape `SETTINGS`. -/
theorem settingsRowsLoadTheirFrame : Obligations.SettingsRowsLoadTheirFrame := by
  intro s h d k hi
  simp only [List.forall_mem_cons, List.not_mem_nil, false_imp_iff, implies_true, and_true]
  and_intros
  all_goals exact exec_known_loads hi rfl (by decide) rfl rfl

/-- Settles O24, row by row: each code is of a family and of shape `READ_TRIGGER`. -/
theorem statusReadRowsLoadTheirFrame : Obligations.StatusReadRowsLoadTheirFrame := by
  intro s h trigger k hi
  simp only [List.forall_mem_cons, List.not_mem_nil, false_imp_iff, implies_true, and_true]
  and_intros
  all_goals exact exec_known_loads hi rfl (by decide) rfl rfl

/-- Settles O25: each row has a shape of its own, whose bytes are the words and then the bytes of the operand. -/
theorem readbackRowsLoadTheirFrame : Obligations.ReadbackRowsLoadTheirFrame := by
  intro s h m o p k hi
  exact ⟨exec_known_loads hi rfl (by decide) rfl rfl, exec_known_loads hi rfl (by decide) rfl rfl,
    exec_known_loads hi rfl (by decide) rfl rfl, exec_known_loads hi rfl (by decide) rfl rfl⟩

/-- Settles O26, row by row: the raw run has its shape's size. -/
theorem i2cRowsLoadTheirFrame : Obligations.I2cRowsLoadTheirFrame := by
  intro s h raw k hi
  simp only [List.forall_mem_cons, List.not_mem_nil, false_imp_iff, implies_true, and_true]
  and_intros
  all_goals exact fun hraw => exec_known_loads hi rfl (by decide) rfl hraw

/-! ## The response code -/

/-- The families in pairs, each response family 0x10 above its request family (30_encoding R55, R56). -/
theorem responseFamily_of_request (c : Byte) : isRequestFamily (family c) = true →
    (c + 0x10#8).toNat = c.toNat + 0x10 ∧ (c + 0x10#8).toNat ≤ 0x73
      ∧ (family c = .reqSet → family (c + 0x10#8) = .ackSet)
      ∧ (family c = .reqCtl → family (c + 0x10#8) = .ackCtl)
      ∧ (family c = .reqRd → family (c + 0x10#8) = .rspRd)
      ∧ (family c = .reqI2c → family (c + 0x10#8) = .rspI2c) := by
  revert c
  apply byte_cases
  decide +kernel

/-- Settles O9: `RESP_CODE` by families, and the code tables over the request families. -/
theorem responseCodeIsRequestPlusSixteen : Obligations.ResponseCodeIsRequestPlusSixteen := by
  intro c
  constructor
  · unfold respCode
    cases family c <;> rfl
  · intro r hr
    obtain ⟨hreq, rfl⟩ := respCode_family hr
    exact responseFamily_of_request c hreq

/-! ## A request, taken by a step -/

theorem dropInput_of_cons {s : State} {inp : Input} {rest : List Input} (h : s.inputs = inp :: rest) :
    s.dropInput = { s with inputs := rest } := by
  simp only [State.dropInput, h, List.tail_cons]

theorem step_of_request {s : State} {r : Request} {rest : List Input} (h : s.inputs = .request r :: rest) :
    step s = runRequest r { s with inputs := rest } := by
  rw [step_of_cons h, dropInput_of_cons h]
  rfl

theorem runRequest_of_ok {r : Request} {i : Instr} (h : decode r = .ok i) (s : State) :
    runRequest r s = exec i s := by
  simp only [runRequest, h]

theorem runRequest_of_error {r : Request} {e : DecodeError} (h : decode r = .error e) (s : State) :
    runRequest r s = .next (rejectRequest r e s) := by
  simp only [runRequest, h]

theorem decode_of_tableWord {nbits w : Nat} {i : Instr} (h : decodeTableWord nbits w = some i) :
    decode (tableRequest nbits w) = .ok i := by
  unfold decodeTableWord at h
  split at h
  · next j hj => rw [hj, Option.some.inj h]
  · cases h

/-- Settles O49: the request at the head is what the step runs, and a table word put there leaves the state itself behind. -/
theorem stepRunsTheDecodedRequest : Obligations.StepRunsTheDecodedRequest := by
  refine ⟨fun s r rest i hin hd => ?_, fun s nbits w i hd => ?_, fun s hin => step_of_nil hin⟩
  · rw [step_of_request hin, runRequest_of_ok hd]
  · exact (step_of_request (State.issue_inputs _ s)).trans (runRequest_of_ok (decode_of_tableWord hd) s)

/-! ## A request that is no instruction -/

theorem decodeAfterCommand_error {fr : Framing} {cmd : Byte} {rest : List Byte} {e : DecodeError}
    (h : decodeAfterCommand fr cmd rest = .error e) : e = .frameTooShort := by
  unfold decodeAfterCommand at h
  split at h
  · cases h; rfl
  · split at h
    · cases h; rfl
    · cases h

/-- A frame is no instruction only where it ends too early. -/
theorem decodeFrame_error {B : List Byte} {e : DecodeError} (h : decodeFrame B = .error e) : e = .frameTooShort := by
  unfold decodeFrame at h
  split at h
  · cases h; rfl
  · split at h
    · split at h
      · exact decodeAfterCommand_error h
      · cases h; rfl
    · exact decodeAfterCommand_error h

theorem rejectRequest_op (sel : BitVec 4) (args : List Operand) (e : DecodeError) (s : State) :
    rejectRequest (.op sel args) e s = s.refuse := by
  cases e <;> rfl

theorem decode_freeOpSelect {sel : BitVec 4} (h : 9 ≤ sel.toNat) (args : List Operand) :
    decode (.op sel args) = .error (.noSuchOperation sel) := if_pos h

/-- Settles O50: a frame is rejected by the codec's own pass over its bytes, an operation by a refusal whatever the reason. -/
theorem stepOnARequestThatIsNoInstruction : Obligations.StepOnARequestThatIsNoInstruction := by
  have refused {s : State} {sel : BitVec 4} {args : List Operand} {rest : List Input} {e : DecodeError}
      (hin : s.inputs = .request (.op sel args) :: rest) (hd : decode (.op sel args) = .error e) :
      step s = .next { s with inputs := rest, fault := .refused } := by
    rw [step_of_request hin, runRequest_of_error hd, rejectRequest_op]
    rfl
  refine ⟨fun s B rest e hin hd => ?_, fun s sel args rest hin hsel => refused hin (decode_freeOpSelect hsel args),
    fun s sel args rest e => refused⟩
  obtain rfl := decodeFrame_error hd
  rw [step_of_request hin, runRequest_of_error hd, exec_decode]
  rfl

/-! ## Words written out -/

/-- Settles O51: the decoder evaluated on each word. -/
theorem writtenOutFramesDecode : Obligations.WrittenOutFramesDecode :=
  ⟨rfl, rfl, rfl, rfl, rfl, rfl, rfl, rfl, rfl, rfl, rfl⟩

end Sys2Proof.Machine
end

section
/-! The checksum function (40_checksum R81, R82, R86). A round is linear over XOR and injective; steps and whole strings inherit
both. -/

namespace Sys2Proof

/-! ## The round -/

/-- 40_checksum R82, the round in one formula. -/
theorem crcRound_eq (c : Byte) :
    crcRound c = (c >>> 1) ^^^ (if c.getLsbD 0 = true then crcFeedback else 0x00#8) := by
  unfold crcRound
  split
  · rfl
  · exact BitVec.xor_zero.symm

theorem crcRound_xor (a b : Byte) : crcRound (a ^^^ b) = crcRound a ^^^ crcRound b := by
  have hfed : ∀ p q : Bool, (if (p ^^ q) = true then crcFeedback else 0x00#8)
      = (if p = true then crcFeedback else 0x00#8) ^^^ (if q = true then crcFeedback else 0x00#8) := by decide
  rw [crcRound_eq, crcRound_eq, crcRound_eq, BitVec.ushiftRight_xor_distrib, BitVec.getLsbD_xor, hfed]
  ac_rfl

/-- The top bit after a round is the low bit before it: the shift clears it, and the feedback has it set. -/
theorem crcRound_getLsbD_seven (c : Byte) : (crcRound c).getLsbD 7 = c.getLsbD 0 := by
  rw [crcRound_eq, BitVec.getLsbD_xor, BitVec.getLsbD_ushiftRight, BitVec.getLsbD_of_ge c (1 + 7) (by decide)]
  cases c.getLsbD 0 <;> rfl

/-- So a round that gives 0 fed nothing back, and only shifted. -/
theorem eq_zero_of_crcRound_eq_zero {c : Byte} (h : crcRound c = 0x00#8) : c = 0x00#8 := by
  have hlow : c.getLsbD 0 = false := by rw [← crcRound_getLsbD_seven, h]; rfl
  have hshift : c >>> 1 = 0x00#8 := by
    rwa [crcRound_eq, hlow, if_neg Bool.false_ne_true, BitVec.xor_zero] at h
  refine BitVec.eq_of_getLsbD_eq fun i _ => ?_
  cases i with
  | zero => exact hlow
  | succ i => rw [Nat.add_comm, ← BitVec.getLsbD_ushiftRight, hshift, BitVec.getLsbD_zero, BitVec.getLsbD_zero]

theorem crcRound_injective : Function.Injective crcRound := by
  intro a b h
  rw [← BitVec.xor_eq_zero_iff] at h ⊢
  exact eq_zero_of_crcRound_eq_zero ((crcRound_xor a b).trans h)

/-! ## Rounds and steps -/

theorem crcRounds_eq_iterate (n : Nat) (c : Byte) : crcRounds n c = crcRound^[n] c := by
  induction n generalizing c with
  | zero => rfl
  | succ n ih => exact ih (crcRound c)

theorem crcStep_eq_iterate (c b : Byte) : crcStep c b = crcRound^[8] (c ^^^ b) := crcRounds_eq_iterate 8 _

theorem crcStep_eq_table (c b : Byte) : crcStep c b = crcStep 0x00#8 (c ^^^ b) := by
  rw [crcStep, crcStep, BitVec.zero_xor]

@[simp] theorem crcStep_self (c : Byte) : crcStep c c = 0x00#8 := by
  rw [crcStep, BitVec.xor_self]
  rfl

theorem crcRounds_xor (n : Nat) (a b : Byte) : crcRounds n (a ^^^ b) = crcRounds n a ^^^ crcRounds n b := by
  induction n generalizing a b with
  | zero => rfl
  | succ n ih => rw [crcRounds, crcRound_xor, ih]; rfl

theorem crcStep_xor (c d a b : Byte) : crcStep (c ^^^ d) (a ^^^ b) = crcStep c a ^^^ crcStep d b := by
  rw [crcStep, crcStep, crcStep, ← crcRounds_xor]
  congr 1
  ac_rfl

theorem crcRounds_bijective (n : Nat) : Function.Bijective (crcRounds n) := by
  rw [funext (crcRounds_eq_iterate n)]
  exact (Finite.injective_iff_bijective.mp crcRound_injective).iterate n

theorem xor_bijective (b : Byte) : Function.Bijective (fun c : Byte => c ^^^ b) :=
  Function.Involutive.bijective fun c => by rw [BitVec.xor_assoc, BitVec.xor_self, BitVec.xor_zero]

theorem crcStep_bijective_accumulator (b : Byte) : Function.Bijective (fun c : Byte => crcStep c b) :=
  (crcRounds_bijective 8).comp (xor_bijective b)

theorem crcStep_comm (c b : Byte) : crcStep c b = crcStep b c := congrArg (crcRounds 8) (BitVec.xor_comm c b)

theorem crcStep_bijective_byte (c : Byte) : Function.Bijective (fun b : Byte => crcStep c b) := by
  rw [funext (crcStep_comm c)]
  exact crcStep_bijective_accumulator c

/-! ## Strings -/

theorem checksum_append (A B : List Byte) : checksum (A ++ B) = crcFrom (checksum A) B := List.foldl_append

theorem crcFrom_injective (B : List Byte) : Function.Injective (fun c : Byte => crcFrom c B) := by
  induction B with
  | nil => exact Function.injective_id
  | cons b B ih => exact ih.comp (crcStep_bijective_accumulator b).injective

theorem crcFrom_zipWith_xor (c d : Byte) {A B : List Byte} (h : A.length = B.length) :
    crcFrom (c ^^^ d) (List.zipWith (fun a b => a ^^^ b) A B) = crcFrom c A ^^^ crcFrom d B := by
  induction A generalizing c d B with
  | nil =>
    obtain rfl := List.length_eq_zero_iff.mp h.symm
    rfl
  | cons a A ih =>
    cases B with
    | nil => cases h
    | cons b B =>
      have hstep := ih (crcStep c a) (crcStep d b) (Nat.succ.inj h)
      rwa [← crcStep_xor] at hstep

theorem checksum_zero_cons (S : List Byte) : checksum (0x00#8 :: S) = checksum S :=
  congrArg (fun c => crcFrom c S) (crcStep_self 0x00#8)

/-- 40_checksum R86 (g): the residue is 0. -/
theorem checksum_append_checksum (S : List Byte) : checksum (S ++ [checksum S]) = 0x00#8 := by
  rw [checksum_append]
  exact crcStep_self (checksum S)

theorem checksum_ne_of_one_byte {A B : List Byte} {x y : Byte} (h : x ≠ y) :
    checksum (A ++ x :: B) ≠ checksum (A ++ y :: B) := by
  rw [checksum_append, checksum_append]
  exact fun e => h ((crcStep_bijective_byte (checksum A)).injective (crcFrom_injective B e))

/-- Settles O1: the rounds and the table by their lemmas, and the sixteen entries by evaluation. -/
theorem checksumIsTableDrivenFold : Obligations.ChecksumIsTableDrivenFold :=
  ⟨crcRound_eq, crcStep_eq_iterate, fun _ => rfl, crcStep_eq_table, by decide⟩

/-- Settles O2: a step is the rounds after an XOR, and both are bijections. -/
theorem checksumStepIsBijective : Obligations.ChecksumStepIsBijective :=
  ⟨crcStep_bijective_accumulator, crcStep_bijective_byte⟩

/-- Settles O3: the step over the changed byte tells the two apart, and no later step brings them together. -/
theorem singleByteChangeChangesChecksum : Obligations.SingleByteChangeChangesChecksum :=
  fun _ _ _ _ => checksum_ne_of_one_byte

/-- Settles O4: linearity by induction on the two strings together, from the linear step. -/
theorem checksumIsLinearWithZeroResidue : Obligations.ChecksumIsLinearWithZeroResidue :=
  ⟨fun _ _ => crcFrom_zipWith_xor 0x00#8 0x00#8, checksum_zero_cons, checksum_append_checksum⟩

end Sys2Proof
end

section
/-! The checksum in the operations (40_checksum R81, R85, R86; 44_exchange R148). That a changed byte is never confirmed rests on the
residue: the bytes of a frame from the command code on have checksum 0 where `CHECK_OK` holds. -/

namespace Sys2Proof.Machine

/-! ## The operation CHECKSUM -/

/-- Settles O5: the body of the operation, which nothing refuses on an idle block. -/
theorem checksumOpWritesAccumulatorAndResult : Obligations.ChecksumOpWritesAccumulatorAndResult := by
  intro s S hi
  have hrun : exec (.checksum S) s = .next (checksumBody S s.start).finish := congrArg _ (runOp_admitted hi)
  rw [hrun, State.finish, ← hi]
  rfl

/-! ## A frame whose checksum is right -/

/-- The last byte of a frame is its checksum field (30_encoding R52, R53). -/
theorem frameBytes_eq_dropLast_append (F : Frame) : frameBytes F = (frameBytes F).dropLast ++ [F.checksum] := by
  have hlast : (frameBytes F).getLast? = some F.checksum := by simp [frameBytes, List.getLast?_cons]
  exact (List.dropLast_append_getLast? _ hlast).symm

theorem verifyRange_eq (rx : List Byte) : verifyRange rx = rx.dropLast.drop 2 := by
  rw [verifyRange, slice, ← List.dropLast_eq_take]

/-- `CHECK_OK` of a received frame makes its bytes from the command code on a string with its own checksum appended (40_checksum
R85). -/
theorem checksum_drop_two_of_checkOk {F : Frame} (hw : F.wellFormed = true)
    (h : flagCheckOk (frameBytes F) (regOf F) = true) : checksum ((frameBytes F).drop 2) = 0x00#8 := by
  have hlen : 2 ≤ (frameBytes F).dropLast.length := by
    have := (frameBytes_length_bounds hw).1
    rw [List.length_dropLast]
    omega
  have hk : F.checksum = checksum ((frameBytes F).dropLast.drop 2) := by
    rw [flagCheckOk, verifyRange_eq] at h
    exact Option.some.inj (beq_iff_eq.mp h)
  rw [frameBytes_eq_dropLast_append, List.drop_append_of_le_length hlen, hk]
  exact checksum_append_checksum _

/-! ## VERIFY_SETTING_RESPONSE -/

theorem exec_verify {s : State} (command : Byte) (a b c : Int) (hi : s.phase = .idle) :
    exec (.verifySettingResponse command.toNat a b c) s
      = .next ((receiveHalf (frameLength command) .settings s.start).andThen (verdictOk a b c)).finish := by
  have hrun : verifyState command.toNat a b c s
      = ((receiveHalf (frameLength command) .settings s.start).andThen (verdictOk a b c)).finish := by
    rw [verifyState, verifyAdmits, isU8_toNat, byteOf_toNat]
    exact runOp_admitted hi
  exact congrArg _ hrun

/-- A verify that confirms read a whole well-formed frame of the settings shape, with its checksum right and the expected values in it
(44_exchange R148). -/
theorem confirmed_of_verify {s t : State} {command : Byte} {a b c : Int} {R : List Byte} (hi : s.phase = .idle)
    (hread : (s.wire.read (frameLength command)).1 = some R)
    (hexec : exec (.verifySettingResponse command.toNat a b c) s = .next t) (hok : t.out.ok = some true) :
    ∃ F, R = frameBytes F ∧ F.wellFormed = true ∧ F.shape = .settings ∧ R.head? = some magic1
      ∧ flagCheckOk R (regOf F) = true ∧ flagValuesMatch (regOf F) a b c = true := by
  rw [exec_verify command a b c hi] at hexec
  injection hexec with hexec
  subst hexec
  by_cases hf : (receiveHalf (frameLength command) .settings s.start).fault = .none
  · obtain ⟨R', F, hread', -, hw, hsh, hbytes, hhead, hend⟩ := receiveHalf_completed rfl hf
    obtain rfl : R' = R := Option.some.inj (hread'.symm.trans hread)
    rw [andThen_none hf, hend] at hok
    have hboth : (flagCheckOk R' (regOf F) && flagValuesMatch (regOf F) a b c) = true := Option.some.inj hok
    rw [Bool.and_eq_true] at hboth
    exact ⟨F, hbytes, hw, hsh, hhead, hboth⟩
  · obtain ⟨-, -, -, -, -, -, hout, -⟩ := receiveHalf_post (frameLength command) .settings (s := s.start) rfl
    rw [andThen_fault hf, State.finish_out, hout] at hok
    cases hok

/-- Settles O35: were both confirmed, the bytes from the command code on would have checksum 0 in both frames, where one changed byte
makes the checksums differ. -/
theorem verifyNeverConfirmsOneByteDamagedAfterTheMarker :
    Obligations.VerifyNeverConfirmsOneByteDamagedAfterTheMarker := by
  intro s s' t t' command a b c A B x y hi hi' hxy hA hread hread' hexec hexec' hok hok'
  have hresidue {s t : State} {z : Byte} (hi : s.phase = .idle)
      (hread : (s.wire.read (frameLength command)).1 = some (A ++ z :: B))
      (hexec : exec (.verifySettingResponse command.toNat a b c) s = .next t) (hok : t.out.ok = some true) :
      checksum (A.drop 2 ++ z :: B) = 0x00#8 := by
    obtain ⟨F, hbytes, hw, -, -, hcheck, -⟩ := confirmed_of_verify hi hread hexec hok
    rw [← List.drop_append_of_le_length hA, hbytes]
    exact checksum_drop_two_of_checkOk hw (hbytes ▸ hcheck)
  exact checksum_ne_of_one_byte hxy
    ((hresidue hi hread hexec hok).trans (hresidue hi' hread' hexec' hok').symm)

end Sys2Proof.Machine
end

section
/-! The length table (41_frame_length R91 to R94) and the operation that reads it. -/

namespace Sys2Proof

/-! ## The table's conditions, on the code as a number -/

theorem inRange_iff {lo hi : Nat} {c : Byte} : inRange lo hi c = true ↔ lo ≤ c.toNat ∧ c.toNat ≤ hi := by
  simp only [inRange, Bool.and_eq_true, decide_eq_true_eq]

theorem byte_ofNat_inj {n k : Nat} (hn : n < 256) (hk : k < 256) : BitVec.ofNat 8 n = BitVec.ofNat 8 k ↔ n = k := by
  rw [← BitVec.toNat_inj, BitVec.toNat_ofNat, BitVec.toNat_ofNat, Nat.mod_eq_of_lt hn, Nat.mod_eq_of_lt hk]

/-- The branches of R91 with every condition a comparison of the code as a number. -/
theorem frameLength_ofNat {n : Nat} (hn : n < 256) :
    frameLength (BitVec.ofNat 8 n)
      = if 0x40 ≤ n ∧ n ≤ 0x43 then 4
        else if 0x50 ≤ n ∧ n ≤ 0x53 then 20
        else if n = 0x60 then 8
        else if n = 0x61 then 25
        else if n = 0x62 then 5
        else if n = 0x63 then 25
        else if n = 0x70 then 27
        else if n = 0x71 then 6
        else if n = 0x72 then 27
        else if n = 0x73 then 6
        else if 0x10 ≤ n ∧ n ≤ 0x1E then 17
        else if 0x30 ≤ n ∧ n ≤ 0x34 then 17
        else 15 := by
  simp only [frameLength, inRange_iff, BitVec.toNat_ofNat, Nat.mod_eq_of_lt hn, byte_ofNat_inj hn, Nat.reduceLT]

/-- Settles O6: the codes R92 lists one by one are evaluated; those of its two ranges, and those it does not list, are followed
through R91's branches. The counts are evaluated. -/
theorem frameLengthTableByValue : Obligations.FrameLengthTableByValue := by
  refine ⟨fun n hn => ?_, by decide +kernel⟩
  simp only [List.mem_cons, List.not_mem_nil, or_false]
  split_ifs with h4 h5 h6 h8 h17 h20 h25 h27
  · rcases h4 with rfl | rfl | rfl | rfl <;> rfl
  · subst h5; rfl
  · rcases h6 with rfl | rfl <;> rfl
  · subst h8; rfl
  · rw [frameLength_ofNat hn]
    rcases h17 with h | h <;> simp (disch := omega) only [if_pos, if_neg]
  · rcases h20 with rfl | rfl | rfl | rfl <;> rfl
  · rcases h25 with rfl | rfl <;> rfl
  · rcases h27 with rfl | rfl <;> rfl
  · rw [frameLength_ofNat hn]
    simp (disch := omega) only [if_neg]

/-! ## The length and the layouts -/

theorem headerLen_ne_not (r : Bool) : headerLen r ≠ headerLen (!r) := by cases r <;> decide

/-- Settles O8: the layout's length, and the headers of the two framings differ. -/
theorem frameLengthIsLayoutLength : Obligations.FrameLengthIsLayoutLength := by
  refine fun c => ⟨frameLength_eq c, fun hother => headerLen_ne_not (isResponseFamily (family c)) ?_⟩
  have hsum := (frameLength_eq c).symm.trans hother
  exact Nat.add_right_cancel (Nat.add_right_cancel hsum)

end Sys2Proof

namespace Sys2Proof.Machine

/-! ## The operation FRAME_LENGTH -/

theorem exec_frameLength (command : Int) (s : State) :
    exec (.frameLength command) s
      = .next (runOp (isU8 command) (State.setResult (.length (frameLength (byteOf command)))) s) := rfl

theorem isU8_eq_false_iff (v : Int) : isU8 v = false ↔ v < 0 ∨ 255 < v := by
  rw [← Bool.not_eq_true, isU8_iff]
  omega

/-- Settles O7: an idle block refuses nothing but a command outside u8, and the body only sets the result. -/
theorem frameLengthOpCompletesOrRefuses : Obligations.FrameLengthOpCompletesOrRefuses := by
  refine fun s command hi => ⟨fun c hc => ?_, fun hout => ?_⟩
  · rw [hc, exec_frameLength, isU8_toNat, byteOf_toNat, runOp_admitted hi, State.finish, ← hi]
    rfl
  · rw [exec_frameLength, runOp_refused (.inr ((isU8_eq_false_iff command).mpr hout))]
    rfl

end Sys2Proof.Machine
end

section
/-! The decode pass (42_decode R101 to R113). What the first bytes announce (`logicalCommand`, `need`) is said once for both framings;
behind the header the pass is `passBody` there, whose fault is a question of how many bytes there are and of the strict test. -/

namespace Sys2Proof

/-! ## What the first bytes announce -/

theorem logicalCommand_request {c : Byte} (hc : c ≠ magic1) (rest : List Byte) : logicalCommand (c :: rest) = some c := by
  simp only [logicalCommand, if_neg hc]

theorem logicalCommand_response (m cmd : Byte) (rest : List Byte) :
    logicalCommand (magic1 :: m :: cmd :: rest) = some cmd := by
  simp only [logicalCommand, if_true, List.getElem?_cons_succ, List.getElem?_cons_zero]

/-- A command is announced by the third byte of a marked string or by the first byte of any other. -/
theorem logicalCommand_cases {B : List Byte} {cmd : Byte} (h : logicalCommand B = some cmd) :
    (∃ m rest, B = magic1 :: m :: cmd :: rest) ∨ (cmd ≠ magic1 ∧ ∃ rest, B = cmd :: rest) := by
  match B with
  | [] => cases h
  | b0 :: rest =>
    by_cases hb : b0 = magic1
    · subst hb
      simp only [logicalCommand, if_true] at h
      match rest, h with
      | m :: _ :: rest', rfl => exact .inl ⟨m, rest', rfl⟩
    · obtain rfl := Option.some.inj ((logicalCommand_request hb rest).symm.trans h)
      exact .inr ⟨hb, rest, rfl⟩

/-- No command is announced exactly where the string is empty, or marked and too short to hold one. -/
theorem logicalCommand_eq_none {B : List Byte} :
    logicalCommand B = none ↔ B.length = 0 ∨ (B.head? = some magic1 ∧ B.length < 3) := by
  match B with
  | [] => simp [logicalCommand]
  | b0 :: rest =>
    by_cases hb : b0 = magic1
    · simp [logicalCommand, hb]
      omega
    · simp [logicalCommand, hb]

/-- `NEED` is header, payload and checksum of the framing and the command announced. -/
theorem need_of_command {B : List Byte} {cmd : Byte} (h : logicalCommand B = some cmd) :
    need B = some (headerLen (B.head? == some magic1) + payloadSize (shapeOf cmd) + 1) := by
  rcases logicalCommand_cases h with ⟨m, rest, rfl⟩ | ⟨hc, rest, rfl⟩
  · simp [need]
  · simp [need, beq_eq_false_iff_ne.mpr hc, hc]

/-- Settles O14: `NEED` counts the header of the framing present, `FRAME_LENGTH` that of the family's framing. -/
theorem needIsFrameLengthOnCanonicalFraming : Obligations.NeedIsFrameLengthOnCanonicalFraming := by
  intro B n cmd hn hc
  obtain rfl := Option.some.inj (hn.symm.trans (need_of_command hc))
  rw [frameLength_eq]
  change if (B.head? == some magic1) = _ then _ else if B.head? = some magic1 then _ else _
  by_cases hm : B.head? = some magic1
  · cases isResponseFamily (family cmd) with
    | true => simp [hm, headerLen]
    | false => simp [hm, headerLen]; omega
  · cases isResponseFamily (family cmd) with
    | true => simp [hm, headerLen]; omega
    | false => simp [hm, headerLen]

end Sys2Proof

namespace Sys2Proof.Machine

/-! ## Reading from a string -/

theorem memByte_eq_none {B : List Byte} {n : Nat} : memByte B n = none ↔ B.length ≤ n := List.getElem?_eq_none_iff

theorem memRead_eq_none {B : List Byte} {addr n : Nat} : memRead B addr n = none ↔ B.length < addr + n := by
  simp [memRead]

theorem memByte_take {B : List Byte} {n k : Nat} (h : n < k) : memByte (B.take k) n = memByte B n :=
  List.getElem?_take_of_lt h

theorem memRead_take {B : List Byte} {addr n k : Nat} (h : addr + n ≤ k) : memRead (B.take k) addr n = memRead B addr n := by
  have hfits : addr + n ≤ (B.take k).length ↔ addr + n ≤ B.length := by simp [h]
  simp only [memRead, hfits, List.drop_take, List.take_take, Nat.min_eq_left (Nat.le_sub_of_add_le' h)]

/-! ## The pass behind the header -/

/-- Behind the header: the device id, then the strict test, then the rest of the frame (42_decode R113). -/
theorem passBody_fault (strict : Bool) (B : List Byte) (F : FrameReg) (pos : Nat) (cmd : Byte) :
    (passBody strict B F pos cmd).fault
      = if B.length ≤ pos then .frameTooShort
        else if strict && family cmd == .other then .unknownCommand
        else if B.length < pos + 2 + payloadSize (shapeOf cmd) then .frameTooShort
        else .none := by
  cases hd : memByte B pos with
  | none => simp only [passBody, hd, if_pos (memByte_eq_none.mp hd)]
  | some d =>
    have hdev : ¬ B.length ≤ pos := by simp [← memByte_eq_none, hd]
    by_cases hs : (strict && family cmd == .other) = true
    · simp only [passBody, hd, hs, if_true, if_neg hdev]
    · rw [if_neg hdev, if_neg hs]
      cases hp : memRead B (pos + 1) (payloadSize (shapeOf cmd)) with
      | none =>
        have hshort := memRead_eq_none.mp hp
        rw [if_pos (by omega)]
        simp only [passBody, hd, if_neg hs, hp]
      | some p =>
        cases hk : memByte B (pos + 1 + payloadSize (shapeOf cmd)) with
        | none =>
          have hshort := memByte_eq_none.mp hk
          rw [if_pos (by omega)]
          simp only [passBody, hd, if_neg hs, hp, hk]
        | some k =>
          have hwhole : ¬ B.length ≤ pos + 1 + payloadSize (shapeOf cmd) := by simp [← memByte_eq_none, hk]
          rw [if_neg (by omega)]
          simp only [passBody, hd, if_neg hs, hp, hk]

theorem passBody_pos {strict : Bool} {B : List Byte} {F : FrameReg} {pos : Nat} {cmd : Byte}
    (h : (passBody strict B F pos cmd).fault = .none) :
    (passBody strict B F pos cmd).pos = pos + 2 + payloadSize (shapeOf cmd) := by
  obtain ⟨A, dev, p, k, rest, rfl, hA, hp, ha⟩ := passBody_none h
  rw [passBody_layout F hA hp ha, hp]

/-- Where the strict test lets the code pass, strictness makes no difference. -/
theorem passBody_of_accepts {strict : Bool} {cmd : Byte} (h : accepts strict cmd) (B : List Byte) (F : FrameReg) (pos : Nat) :
    passBody strict B F pos cmd = passBody false B F pos cmd := by
  simp only [passBody, strictTest_false h, Bool.false_and]

/-- Device id, the longest payload and the checksum are 24 bytes. -/
theorem passBody_take (strict : Bool) (B : List Byte) (F : FrameReg) {pos n : Nat} (hn : pos + 24 ≤ n) (cmd : Byte) :
    passBody strict (B.take n) F pos cmd = passBody strict B F pos cmd := by
  have hsize := payloadSize_le (shapeOf cmd)
  simp (disch := omega) only [passBody, memByte_take, memRead_take]

/-! ## The pass, by what is announced -/

theorem decodePass_of_no_command {strict : Bool} {B : List Byte} (h : logicalCommand B = none) :
    (decodePass strict B).fault = .frameTooShort := by
  rcases logicalCommand_eq_none.mp h with hnil | ⟨hm, hlen⟩
  · rw [List.eq_nil_of_length_eq_zero hnil]; rfl
  · match B, hm, hlen with
    | [_], rfl, _ => rfl
    | [_, _], rfl, _ => rfl

/-- Where a command is announced, the pass goes on behind the header's own bytes; only there does strictness come in. -/
theorem decodePass_of_command {B : List Byte} {cmd : Byte} (h : logicalCommand B = some cmd) :
    ∃ F pos, pos + 1 = headerLen (B.head? == some magic1)
      ∧ ∀ strict, decodePass strict B = passBody strict B F pos cmd := by
  rcases logicalCommand_cases h with ⟨m, rest, rfl⟩ | ⟨hc, rest, rfl⟩
  · exact ⟨_, 3, by simp [headerLen], fun _ => rfl⟩
  · exact ⟨_, 1, by simp [hc, headerLen], fun _ => if_neg hc⟩

/-- The fault of a pass, by the length of the string (42_decode R103, R113). -/
theorem decodePass_fault_of_command {B : List Byte} {cmd : Byte} (h : logicalCommand B = some cmd) (strict : Bool) :
    (decodePass strict B).fault
      = if B.length < headerLen (B.head? == some magic1) then .frameTooShort
        else if strict && family cmd == .other then .unknownCommand
        else if B.length < headerLen (B.head? == some magic1) + payloadSize (shapeOf cmd) + 1 then .frameTooShort
        else .none := by
  obtain ⟨F, pos, hpos, hpass⟩ := decodePass_of_command h
  rw [hpass, passBody_fault, ← hpos,
    show pos + 1 + payloadSize (shapeOf cmd) + 1 = pos + 2 + payloadSize (shapeOf cmd) by omega]
  simp only [Nat.lt_succ_iff]

/-- Where the strict test lets the code pass, the fault is a question of the length alone. -/
theorem decodePass_fault_of_accepts {strict : Bool} {B : List Byte} {cmd : Byte} (h : logicalCommand B = some cmd)
    (ha : accepts strict cmd) :
    (decodePass strict B).fault
      = if B.length < headerLen (B.head? == some magic1) + payloadSize (shapeOf cmd) + 1 then .frameTooShort
        else .none := by
  rw [decodePass_fault_of_command h, strictTest_false ha]
  by_cases hheader : B.length < headerLen (B.head? == some magic1)
  · rw [if_pos hheader, if_pos (by omega)]
  · rw [if_neg hheader, if_neg Bool.false_ne_true]

theorem decodePass_pos {strict : Bool} {B : List Byte} (h : (decodePass strict B).fault = .none) :
    need B = some (decodePass strict B).pos := by
  cases hc : logicalCommand B with
  | none => rw [decodePass_of_no_command hc] at h; cases h
  | some cmd =>
    obtain ⟨F, pos, hpos, hpass⟩ := decodePass_of_command hc
    rw [hpass] at h ⊢
    rw [need_of_command hc, passBody_pos h, ← hpos]
    congr 1
    omega

/-- Settles O11: with the fallback on, the length is all that can go wrong. -/
theorem passFaultsExactlyWhenTooShort : Obligations.PassFaultsExactlyWhenTooShort := by
  intro B
  cases hc : logicalCommand B with
  | none =>
    have hf := decodePass_of_no_command (strict := false) hc
    refine ⟨⟨fun _ => ?_, fun _ => hf⟩, fun h => absurd hf h⟩
    exact (logicalCommand_eq_none.mp hc).imp_right .inl
  | some cmd =>
    have hstart : ¬ (B.length = 0 ∨ (B.head? = some magic1 ∧ B.length < 3)) := by
      rw [← logicalCommand_eq_none, hc]; simp
    have hneed := need_of_command hc
    have hf := decodePass_fault_of_accepts hc (.inl rfl : accepts false cmd)
    split at hf
    next hshort => exact ⟨⟨fun _ => .inr (.inr ⟨_, hneed, hshort⟩), fun _ => hf⟩, fun h => absurd hf h⟩
    next hwhole =>
      refine ⟨⟨fun h => absurd (hf.symm.trans h) (by decide), ?_⟩, fun _ => ⟨hf, decodePass_pos hf⟩⟩
      rw [← or_assoc]
      rintro (h | ⟨n, hn, hlt⟩)
      · exact absurd h hstart
      · obtain rfl := Option.some.inj (hneed.symm.trans hn)
        exact absurd hlt hwhole

/-- Settles O10: a pass that ran to its end read one of the two layouts. -/
theorem discriminatorIsTheFirstByte : Obligations.DiscriminatorIsTheFirstByte := by
  intro strict B h
  change (flagIsResponse _ = true ↔ B.head? = some magic1) ∧ (B.head? = some magic1 → _) ∧ (B.head? ≠ some magic1 → _)
  rcases decodePass_none h with ⟨cmd, dev, k, p, rest, rfl, hc, hp, ha⟩ | ⟨m, cmd, dev, k, p, rest, rfl, hp, ha⟩
  · rw [decodePass_request hc hp ha]
    simp [flagIsResponse, regCommand, regOf, hc]
  · rw [decodePass_response hp ha]
    simp [flagIsResponse, regCommand, regOf]

/-- Settles O12: a pass that ran to its end read the Frame the string begins with, and every read of a pass is within the first
27 bytes. -/
theorem passIgnoresBytesAfterTheFrame : Obligations.PassIgnoresBytesAfterTheFrame := by
  constructor
  · intro strict B X h
    obtain ⟨F, rest, rfl, hw, ha, hpass⟩ := decodePass_ok h
    rw [hpass, List.append_assoc, decodePass_frameBytes _ hw ha]
  · intro strict B
    simp (disch := omega) only [decodePass, memByte_take, passBody_take]

/-- Settles O13: the fault by the length of the string and the strict test, which a code of a family passes. -/
theorem strictModeFaultOrder : Obligations.StrictModeFaultOrder := by
  refine fun B => ⟨decodePass_of_no_command, fun cmd hc => ⟨fun hk => ?_, fun ho => ?_⟩⟩
  · obtain ⟨F, pos, -, hpass⟩ := decodePass_of_command hc
    rw [hpass, hpass, passBody_of_accepts (.inr hk)]
  · refine (decodePass_fault_of_command hc true).trans ?_
    simp only [ho, beq_self_eq_true, Bool.and_self, if_true]
    rfl

end Sys2Proof.Machine
end

section
/-! The operation DECODE and the rows that no family has (42_decode R101 to R118). A frame behind a header is loaded, whatever
follows it; where the pass faults, the fault is delivered and nothing is reported. -/

namespace Sys2Proof.Machine

/-! ## DECODE of a frame behind a header -/

theorem markerOk_response (m dev : Byte) : markerOk ⟨.response m, dev⟩ = (m == 0x55#8) := by
  rw [Bool.eq_iff_iff]
  simp [markerOk]

/-- A string that begins with a frame whose code the strict test lets pass. -/
theorem exec_decode_loads {s : State} {cmd : Byte} {h : Header} {p : List Byte} (k : Byte) (rest : List Byte)
    (hi : s.phase = .idle) (hs : Startable cmd h) (hp : p.length = payloadSize (shapeOf cmd))
    (ha : accepts s.cfg.strictUnknown cmd) :
    exec (.decode (frameBytes (frameWith cmd h p k) ++ rest)) s
      = .next (loaded (framedAs cmd (shapeOf cmd) h p k) (isResponseHeader h) (markerOk h)
          (family cmd != .other) (framedSize h p.length) s) := by
  have hpass := decodePass_frameBytes (strict := s.cfg.strictUnknown) rest (wellFormed_frameWith (k := k) hs hp)
    fun c hc => Option.some.inj ((cmd_frameWith p k hs).symm.trans hc) ▸ ha
  rw [exec_decode, runDecode_ok hi hpass, flagIsResponse_frameWith p k hs,
    flagMagicOk_frameWith p k hs, flagKnown_frameWith p k hs, frameBytes_frameWith_length p k hs, frameWith_eq_framedAs]
  rfl

/-- Settles O15, framing by framing: the string is the bytes of a frame behind a header, and what follows it. -/
theorem decodeOpLoadsTheFrame : Obligations.DecodeOpLoadsTheFrame := by
  intro s m cmd dev k p rest hi hp ha
  constructor
  · intro hc
    have hload := exec_decode_loads (h := ⟨.request, dev⟩) k rest hi (fun _ => hc) hp ha
    simp only [frameWith, frameBytes_request _ _ _ _ _ hc, List.cons_append, List.append_assoc, List.nil_append] at hload
    exact hload
  · have hload := exec_decode_loads (h := ⟨.response m, dev⟩) k rest hi (fun e => nomatch e) hp ha
    simp only [frameWith, frameBytes_response, List.cons_append, List.append_assoc, List.nil_append, markerOk_response]
      at hload
    exact hload

/-- Settles O16: a pass that faults leaves the register and the cursor, and nothing else is written but the fault. -/
theorem decodeOpFaultDelivery : Obligations.DecodeOpFaultDelivery := by
  intro s B hi hf
  exact ⟨_, (exec_decode B s).trans (congrArg _ (runDecode_fault hi hf)), rfl, rfl, rfl, rfl, rfl, rfl, rfl⟩

/-! ## DECODE after ENCODE -/

theorem exec_encode (a : FrameArg) (s : State) :
    exec (.encode a) s = .next (runOp a.wellFormed (encodeBody a.toFrame) s) := rfl

/-- ENCODE of a well-formed Frame gives the Frame's bytes. -/
theorem exec_encode_toArg {F : Frame} {u : State} (hi : u.phase = .idle) (hw : F.wellFormed = true) :
    exec (.encode F.toArg) u = .next (encodeBody F u.start).finish := by
  obtain ⟨hfits, hback⟩ := toArg_wellFormed hw
  rw [exec_encode, hfits, hback, runOp_admitted hi]

/-- Settles O20: one pass over a well-formed Frame's bytes gives the Frame back. -/
theorem decodeAfterEncodeGivesTheFrameBack : Obligations.DecodeAfterEncodeGivesTheFrameBack := by
  intro s u F cmd hs hu hw hcmd ha
  have hpass := decodePass_frameBytes (strict := s.cfg.strictUnknown) [] hw
    fun c hc => Option.some.inj (hcmd.symm.trans hc) ▸ ha
  rw [List.append_nil] at hpass
  exact ⟨_, _, frameBytes F, exec_encode_toArg hu hw, rfl,
    (exec_decode _ s).trans (congrArg _ (runDecode_ok hs hpass)), rfl, rfl, rfl, rfl⟩

/-! ## The rows of no family -/

/-- Settles O27: the fallback rows carry their code behind a header as the other rows do, with the settings shape. -/
theorem fallbackRowsLoadSettingsShape : Obligations.FallbackRowsLoadSettingsShape := by
  intro s c m dev d k hi hstrict ho
  have hsh : shapeOf c = .settings := shapeOf_other ho
  have hp : (settingsBytes d).length = payloadSize (shapeOf c) := by rw [hsh]; rfl
  constructor
  · intro hc
    have hload := exec_wireFrame_loads (i := .otherReq c dev d k) hi rfl (fun _ => hc) hp (.inl hstrict)
    rw [hsh, ho] at hload
    exact hload
  · have hload := exec_wireFrame_loads (i := .otherResp m c dev d k) hi rfl (fun e => nomatch e) hp (.inl hstrict)
    rw [hsh, ho, markerOk_response] at hload
    exact hload

theorem logicalCommand_frameWith {cmd : Byte} {h : Header} (p : List Byte) (k : Byte) (hs : Startable cmd h) :
    logicalCommand (frameBytes (frameWith cmd h p k)) = some cmd := by
  obtain ⟨_ | m, dev⟩ := h
  · simp only [frameWith, frameBytes_request _ _ _ _ _ (hs rfl), logicalCommand_request (hs rfl)]
  · simp only [frameWith, frameBytes_response, logicalCommand_response]

theorem headerLen_le_four (r : Bool) : headerLen r ≤ 4 := by cases r <;> decide

/-- The header of a whole frame is there, so in strict mode a code of no family is what the pass stops at (42_decode R113). -/
theorem decodePass_strict_other {cmd : Byte} {h : Header} {p : List Byte} (k : Byte) (hs : Startable cmd h)
    (hp : p.length = payloadSize (shapeOf cmd)) (ho : family cmd = .other) :
    (decodePass true (frameBytes (frameWith cmd h p k))).fault = .unknownCommand := by
  have hlen := (frameBytes_length_bounds (wellFormed_frameWith (k := k) hs hp)).1
  rw [decodePass_fault_of_command (logicalCommand_frameWith p k hs),
    if_neg (Nat.not_lt.mpr ((headerLen_le_four _).trans hlen)), ho]
  rfl

/-- A wire row with a code of no family is turned away in strict mode, as any DECODE that faults. -/
theorem exec_other_strict {i : Instr} {s : State} {cmd : Byte} {h : Header} {d : SettingsData} {k : Byte}
    (hi : s.phase = .idle) (hstrict : s.cfg.strictUnknown = true) (ho : family cmd = .other)
    (hf : wireFrame i = some (frameWith cmd h (settingsBytes d) k)) (hs : Startable cmd h) :
    ∃ t, exec i s = .next t
      ∧ t.fault = .unknownCommand ∧ t.out = Outputs.empty ∧ t.phase = .idle
      ∧ t.cfg = s.cfg ∧ t.inputs = s.inputs ∧ t.targetId = s.targetId ∧ t.wire = s.wire := by
  have hfault : (decodePass s.cfg.strictUnknown (frameBytes (frameWith cmd h (settingsBytes d) k))).fault
      = .unknownCommand := by
    rw [hstrict]
    exact decodePass_strict_other k hs (by rw [shapeOf_other ho]; rfl) ho
  rw [exec_of_wireFrame hf, ← hfault]
  exact decodeOpFaultDelivery s _ hi (by rw [hfault]; decide)

/-- Settles O28: both rows carry their code behind a header. -/
theorem fallbackRowsFaultWhenStrict : Obligations.FallbackRowsFaultWhenStrict := by
  intro s c m dev d k hi hstrict ho i hmem
  have hresp := exec_other_strict (i := .otherResp m c dev d k) (h := ⟨.response m, dev⟩) hi hstrict ho rfl
    (fun e => nomatch e)
  split at hmem
  · obtain rfl := List.mem_singleton.mp hmem
    exact hresp
  next hc =>
    rcases List.mem_pair.mp hmem with rfl | rfl
    · exact exec_other_strict (h := ⟨.request, dev⟩) hi hstrict ho rfl (fun _ => hc)
    · exact hresp

end Sys2Proof.Machine
end

section
/-! The operation ENCODE (43_encode R131 to R135). An operand that is not well-formed is refused; of one that is, the operation gives
the Frame's bytes and puts the cursor behind them. What being well-formed asks of each part of the operand is said once, part by part. -/

namespace Sys2Proof

/-! ## What a well-formed payload is -/

theorem fits_settings_iff {x y z : Int} {s : Shape} :
    (PayloadArg.settings x y z).fits s = true
      ↔ s = .settings ∧ ∀ w ∈ [x, y, z], -2147483648 ≤ w ∧ w ≤ 2147483647 := by
  simp [PayloadArg.fits, isS32_iff, and_assoc]

theorem fits_trigger_iff {v : Int} {s : Shape} :
    (PayloadArg.trigger v).fits s = true ↔ s = .readTrigger ∧ 0 ≤ v ∧ v ≤ 255 := by
  simp [PayloadArg.fits, isU8_iff]

theorem fits_motorStatus_iff {v q c m t e : Int} {s : Shape} :
    (PayloadArg.motorStatus v q c m t e).fits s = true
      ↔ s = .motorStatus ∧ (∀ w ∈ [v, q, c], -2147483648 ≤ w ∧ w ≤ 2147483647)
        ∧ ∀ w ∈ [m, t, e], 0 ≤ w ∧ w ≤ 255 := by
  simp [PayloadArg.fits, isS32_iff, isU8_iff, and_assoc]

theorem fits_otherStatus_iff {v t e m b x : Int} {s : Shape} :
    (PayloadArg.otherStatus v t e m b x).fits s = true
      ↔ s = .otherStatus ∧ (0 ≤ v ∧ v ≤ 4294967295) ∧ (∀ w ∈ [t, e], -2147483648 ≤ w ∧ w ≤ 2147483647)
        ∧ ∀ w ∈ [m, b, x], 0 ≤ w ∧ w ≤ 255 := by
  simp [PayloadArg.fits, isU32_iff, isS32_iff, isU8_iff, and_assoc]

theorem fits_pid_iff {kp ki kd b0 b1 b2 : Int} {s : Shape} :
    (PayloadArg.pid kp ki kd b0 b1 b2).fits s = true
      ↔ (s = .pidRbSpeed ∨ s = .pidRbPos) ∧ (∀ w ∈ [kp, ki, kd], 0 ≤ w ∧ w ≤ 4294967295)
        ∧ ∀ w ∈ [b0, b1, b2], 0 ≤ w ∧ w ≤ 255 := by
  simp [PayloadArg.fits, isU32_iff, isU8_iff, and_assoc]

theorem not_exists_outside {ws : List Int} {lo hi : Int} (h : ∀ w ∈ ws, lo ≤ w ∧ w ≤ hi) :
    ¬ ∃ w ∈ ws, w < lo ∨ hi < w := by
  rintro ⟨w, hw, hout⟩
  have hin := h w hw
  omega

end Sys2Proof

namespace Sys2Proof.Machine

/-! ## What a well-formed operand is -/

/-- The header, the payload and the shape of a well-formed operand (43_encode R133). -/
theorem argWellFormed_parts {a : FrameArg} (h : a.wellFormed = true) :
    a.headerOk = true ∧ isU8 a.deviceId = true ∧ isU8 a.checksum = true
      ∧ a.command.map (fun c => shapeOf (byteOf c)) = some a.shape ∧ a.payload.fits a.shape = true := by
  simpa only [FrameArg.wellFormed, Bool.and_eq_true, beq_iff_eq, and_assoc] using h

/-- The markers are there together, in a response, or missing together, in a request (43_encode R133 (3)). -/
theorem headerOk_cases {a : FrameArg} (h : a.headerOk = true) :
    (a.firstByte ≠ 0xAA ∧ a.magic2 = none ∧ a.actualCommand = none ∧ isU8 a.firstByte = true)
      ∨ (a.firstByte = 0xAA ∧ ∃ m c, a.magic2 = some m ∧ a.actualCommand = some c ∧ isU8 m = true ∧ isU8 c = true) := by
  unfold FrameArg.headerOk at h
  split at h
  next m c hm hc =>
    simp only [Bool.and_eq_true, decide_eq_true_eq] at h
    obtain ⟨⟨hb, hum⟩, huc⟩ := h
    exact .inr ⟨hb, m, c, hm, hc, hum, huc⟩
  next hm hc =>
    simp only [Bool.and_eq_true, Bool.not_eq_true', decide_eq_false_iff_not] at h
    obtain ⟨hb, hub⟩ := h
    exact .inl ⟨hb, hm, hc, hub⟩
  next => cases h

theorem markers_isSome {a : FrameArg} (h : a.headerOk = true) :
    a.magic2.isSome = (a.firstByte == 0xAA) ∧ a.actualCommand.isSome = (a.firstByte == 0xAA) := by
  rcases headerOk_cases h with ⟨hb, hm, hc, -⟩ | ⟨hb, m, c, hm, hc, -⟩
  · simp [hb, hm, hc]
  · simp [hb, hm, hc]

/-- Every byte field outside the payload fits (43_encode R133 (4)). -/
theorem byteField_isU8 {a : FrameArg} (h : a.wellFormed = true) {v : Int}
    (hv : v = a.firstByte ∨ v = a.deviceId ∨ v = a.checksum ∨ a.magic2 = some v ∨ a.actualCommand = some v) :
    isU8 v = true := by
  obtain ⟨hhead, hdev, hsum, -, -⟩ := argWellFormed_parts h
  rcases headerOk_cases hhead with ⟨-, hm, hc, hub⟩ | ⟨hb, m, c, hm, hc, hum, huc⟩
  · simp only [hm, hc, reduceCtorEq, or_false] at hv
    rcases hv with rfl | rfl | rfl
    exacts [hub, hdev, hsum]
  · simp only [hb, hm, hc, Option.some.injEq] at hv
    rcases hv with rfl | rfl | rfl | rfl | rfl
    exacts [rfl, hdev, hsum, hum, huc]

/-! ## The bytes of a well-formed operand -/

theorem toFrame_isResponse {a : FrameArg} (h : a.wellFormed = true) : a.toFrame.isResponse = (a.firstByte == 0xAA) := by
  rw [Bool.eq_iff_iff, Frame.isResponse, beq_iff_eq, beq_iff_eq]
  exact byteOf_eq_iff (byteField_isU8 h (.inl rfl))

theorem frameBytes_toFrame_request {a : FrameArg} (h : a.wellFormed = true) (hb : a.firstByte ≠ 0xAA) :
    frameBytes a.toFrame = [byteOf a.firstByte, byteOf a.deviceId] ++ a.payload.toBytes ++ [byteOf a.checksum] := by
  have hr : a.toFrame.isResponse = false := by simp [toFrame_isResponse h, hb]
  simp only [frameBytes, hr]
  simp [FrameArg.toFrame]

theorem frameBytes_toFrame_response {a : FrameArg} {m c : Int} (h : a.wellFormed = true) (hb : a.firstByte = 0xAA)
    (hm : a.magic2 = some m) (hc : a.actualCommand = some c) :
    frameBytes a.toFrame
      = [0xAA#8, byteOf m, byteOf c, byteOf a.deviceId] ++ a.payload.toBytes ++ [byteOf a.checksum] := by
  have hr : a.toFrame.isResponse = true := by simp [toFrame_isResponse h, hb]
  have hmarker : byteOf 0xAA = 0xAA#8 := rfl
  simp only [frameBytes, hr]
  simp [FrameArg.toFrame, hb, hm, hc, hmarker]

theorem frameBytes_toFrame_length {a : FrameArg} (h : a.wellFormed = true) :
    (frameBytes a.toFrame).length = headerLen (a.firstByte == 0xAA) + payloadSize a.shape + 1 := by
  rw [frameBytes_length (toFrame_wellFormed h), toFrame_isResponse h]
  rfl

/-! ## The operation ENCODE -/

/-- ENCODE of a well-formed operand: the whole next state (43_encode R131). -/
theorem exec_encode_of_wellFormed {a : FrameArg} {s : State} (hi : s.phase = .idle) (hw : a.wellFormed = true) :
    exec (.encode a) s = .next { s with
      pos := (frameBytes a.toFrame).length
      out := { Outputs.empty with result := some (.bytes (frameBytes a.toFrame)) }
      fault := .none } := by
  rw [exec_encode, hw, runOp_admitted hi]
  obtain ⟨⟩ := s
  cases hi
  rfl

theorem exec_encode_of_illFormed {a : FrameArg} (hw : ¬ a.wellFormed = true) (s : State) :
    exec (.encode a) s = .next { s with fault := .refused } := by
  rw [exec_encode, runOp_refused (.inr (Bool.eq_false_of_not_eq_true hw))]
  rfl

/-- Settles O17, framing by framing, with the operand's own payload bytes. -/
theorem encodeOpWritesFieldsInWireOrder : Obligations.EncodeOpWritesFieldsInWireOrder := by
  intro s a hi hw
  obtain ⟨hhead, -⟩ := argWellFormed_parts hw
  refine ⟨_, a.payload.toBytes, exec_encode_of_wellFormed hi hw, ?_, ?_, ?_⟩
  · cases a.payload <;> rfl
  · rcases headerOk_cases hhead with ⟨hb, hm, hc, -⟩ | ⟨hb, m, c, hm, hc, -⟩
    · rw [frameBytes_toFrame_request hw hb, hm, hc]
    · rw [frameBytes_toFrame_response hw hb hm hc, hm, hc]
  · rw [frameBytes_toFrame_length hw]

/-- Settles O18: each of the conditions contradicts the part of being well-formed that it speaks of. -/
theorem encodeOpRefusesIllFormedFrame : Obligations.EncodeOpRefusesIllFormedFrame := by
  intro s a _ hbad
  refine exec_encode_of_illFormed (fun hw => ?_) s
  obtain ⟨hhead, -, -, hshape, hfits⟩ := argWellFormed_parts hw
  obtain ⟨hmagic, hactual⟩ := markers_isSome hhead
  rcases hbad with h | h | h | h | ⟨v, hv, h⟩ | ⟨x, y, z, hp, h⟩ | ⟨v, hp, h⟩ | ⟨v, q, c, m, t, e, hp, h⟩
    | ⟨v, t, e, m, b, x, hp, h⟩ | ⟨kp, ki, kd, b0, b1, b2, hp, h⟩
  · exact h hshape
  · exact h (fits_length hfits)
  · exact h hmagic
  · exact h hactual
  · have hin := (isU8_iff v).mp (byteField_isU8 hw hv)
    omega
  · obtain ⟨hs, hwords⟩ := fits_settings_iff.mp (hp ▸ hfits)
    exact h.elim (· hs) (not_exists_outside hwords)
  · obtain ⟨hs, hlo, hhi⟩ := fits_trigger_iff.mp (hp ▸ hfits)
    exact h.elim (· hs) (by omega)
  · obtain ⟨hs, hwords, hbytes⟩ := fits_motorStatus_iff.mp (hp ▸ hfits)
    rcases h with h | h | h
    · exact h hs
    · exact not_exists_outside hwords h
    · exact not_exists_outside hbytes h
  · obtain ⟨hs, ⟨hlo, hhi⟩, hwords, hbytes⟩ := fits_otherStatus_iff.mp (hp ▸ hfits)
    rcases h with h | h | h | h | h
    · exact h hs
    · omega
    · omega
    · exact not_exists_outside hwords h
    · exact not_exists_outside hbytes h
  · obtain ⟨hs, hwords, hbytes⟩ := fits_pid_iff.mp (hp ▸ hfits)
    rcases h with ⟨hspeed, hpos⟩ | h | h
    · exact hs.elim hspeed hpos
    · exact not_exists_outside hwords h
    · exact not_exists_outside hbytes h

/-! ## ENCODE after DECODE -/

/-- A DECODE that ended without a fault ran its pass to the end. -/
theorem decodePass_none_of_exec {s t : State} {B : List Byte} (hi : s.phase = .idle)
    (hx : exec (.decode B) s = .next t) (hf : t.fault = .none) : (decodePass s.cfg.strictUnknown B).fault = .none := by
  by_contra hfault
  rw [exec_decode, runDecode_fault hi hfault] at hx
  cases hx
  exact hfault hf

/-- Settles O19: the pass read the Frame whose bytes the string begins with. -/
theorem encodeAfterDecodeGivesTheBytesBack : Obligations.EncodeAfterDecodeGivesTheBytesBack := by
  intro s t B hi hx hf
  have hnone := decodePass_none_of_exec hi hx hf
  have hneed := decodePass_pos hnone
  obtain ⟨F, rest, rfl, hw, -, hpass⟩ := decodePass_ok hnone
  rw [exec_decode, runDecode_ok hi hpass] at hx
  cases hx
  rw [hpass] at hneed
  refine ⟨F, _, rfl, hneed, by simp, fun u hu => ⟨_, exec_encode_toArg hu hw, rfl, ?_, fun hlen => ?_⟩⟩
  · rw [List.take_left]
    rfl
  · have hnil : rest = [] := by simpa using hlen
    rw [hnil, List.append_nil]
    rfl

end Sys2Proof.Machine
end

section
/-! The halves of an exchange on request and response frames (44_exchange R142 to R163; 60_exceptions R203, R208). What the dispatcher
sends is `sealedRequest`, and the receive half is said twice: what it leaves on a response of the expected code, and how it ends on
any answer of the transport, in the order of the tests. -/

namespace Sys2Proof.Machine

/-! ## The bytes of a request -/

section Request

variable {cmd : Byte} (target : Byte) (p : List Byte) (hc : cmd ≠ magic1)
include hc

theorem frameBytes_requestFrame : frameBytes (requestFrame cmd target p) = cmd :: target :: (p ++ [0x00#8]) :=
  frameBytes_request cmd target (shapeOf cmd) p 0x00#8 hc

theorem frameBytes_requestFrame_length : (frameBytes (requestFrame cmd target p)).length = 2 + p.length + 1 := by
  simp only [frameBytes_requestFrame target p hc, List.length_cons, List.length_append, List.length_nil]
  omega

/-- A request's checksum covers code, target and payload (40_checksum R84). -/
theorem frameChecksum_requestFrame :
    frameChecksum (frameBytes (requestFrame cmd target p)) = checksum (cmd :: target :: p) := by
  have hcovered : covered (cmd :: target :: (p ++ [0x00#8])) = cmd :: target :: p := by
    simp [covered, slice, hc]
  rw [frameBytes_requestFrame target p hc, frameChecksum, hcovered]

theorem sealBytes_requestFrame : sealBytes (requestFrame cmd target p) = sealedRequest cmd target p := by
  rw [sealBytes, frameChecksum_requestFrame target p hc, frameBytes_requestFrame target p hc]
  change (cmd :: target :: p ++ [0x00#8]).dropLast ++ _ = _
  rw [List.dropLast_concat]
  rfl

end Request

/-! ## The send half -/

/-- The state behind a send half whose write was taken: that of a completed send, its last phase not yet left. -/
def requestSent (cmd target : Byte) (p : List Byte) (s : State) : State :=
  { sent cmd target (shapeOf cmd) p (s.wire.write (sealedRequest cmd target p)).2 s with phase := .settle }

/-- A send half whose write is taken has sent the sealed request (44_exchange R144). -/
theorem sendHalf_of_accept {s : State} {cmd : Byte} (target : Byte) (p : List Byte) (hc : cmd ≠ magic1)
    (hw : s.wire.writeAnswer = .accept) :
    sendHalf (requestFrame cmd target p) s.start = requestSent cmd target p s := by
  have htaken : (s.start.wire.write (sealedRequest cmd target p)).1 = true := by
    rw [State.start_wire, write_accept _ hw]
  rw [sendHalf_eq _ rfl, sealBytes_requestFrame target p hc, if_pos htaken]
  simp only [buildPhase, frameChecksum_requestFrame target p hc, sealBytes_requestFrame target p hc,
    frameBytes_requestFrame_length target p hc]
  rfl

/-- From `s` to `t` a write of `S` raised after `n` bytes, and nothing more was moved or reported (60_exceptions R203). -/
structure WriteRaised (S : List Byte) (n : Nat) (s t : State) : Prop where
  fault : t.fault = .transportError
  out : t.out = Outputs.empty
  wire : t.wire = { s.wire.askedWrite with outgoing := s.wire.outgoing ++ S.take n }

theorem sendHalf_of_raise {s : State} {cmd : Byte} (target : Byte) (p : List Byte) (hc : cmd ≠ magic1) {n : Nat}
    (hw : s.wire.writeAnswer = .raise n) :
    WriteRaised (sealedRequest cmd target p) n s (sendHalf (requestFrame cmd target p) s.start) := by
  obtain ⟨hwire, hfault, -, -, -, -, -, -, -, -, hout⟩ := sendHalf_post (requestFrame cmd target p) (s := s.start) rfl
  rw [sealBytes_requestFrame target p hc, State.start_wire, write_raise _ hw] at hwire hfault
  exact ⟨hfault, hout, hwire⟩

/-! ## The receive half -/

/-- The bytes that a receive path sums (40_checksum R85). -/
theorem verifyRange_response (m cmd dev k : Byte) (p : List Byte) :
    verifyRange (magic1 :: m :: cmd :: dev :: (p ++ [k])) = cmd :: dev :: p := by
  rw [verifyRange_eq, show magic1 :: m :: cmd :: dev :: (p ++ [k]) = magic1 :: m :: cmd :: dev :: p ++ [k] from rfl,
    List.dropLast_concat]
  rfl

theorem flagCheckOk_response (m cmd dev k : Byte) (sh : Shape) (p : List Byte) :
    flagCheckOk (magic1 :: m :: cmd :: dev :: (p ++ [k])) (regOf ⟨magic1, some m, some cmd, dev, sh, p, k⟩)
      = (k == checksum (cmd :: dev :: p)) := by
  rw [flagCheckOk, verifyRange_response]
  rfl

/-- The receive half on a marked frame of the expected shape and nothing after it (44_exchange R148, R151). -/
theorem receiveHalf_of_response {len : Nat} {u : State} {m cmd dev k : Byte} {p : List Byte} (h0 : u.fault = .none)
    (hread : (u.wire.read len).1 = some (magic1 :: m :: cmd :: dev :: (p ++ [k])))
    (hp : p.length = payloadSize (shapeOf cmd)) (ha : accepts u.cfg.strictUnknown cmd) :
    receiveHalf len (shapeOf cmd) u
      = { u with
          wire := (u.wire.read len).2
          rx := magic1 :: m :: cmd :: dev :: (p ++ [k])
          frame := regOf ⟨magic1, some m, some cmd, dev, shapeOf cmd, p, k⟩
          pos := 4 + p.length + 1
          c := checksum (cmd :: dev :: p)
          phase := .check } := by
  have hlen : (magic1 :: m :: cmd :: dev :: (p ++ [k])).length = 4 + p.length + 1 := by
    simp only [List.length_cons, List.length_append, List.length_nil]
    omega
  rw [receiveHalf_eq len (shapeOf cmd) h0, hread]
  simp only [decodePass_response (rest := []) hp ha, hlen, verifyRange_response]
  simp [regOf]

/-- How a receive path ends on the answer of its read, in the order of the tests (44_exchange R162; 60_exceptions R208); `done` is
what it has to show for an answer that passed them. -/
def ReceiveOutcome (strict : Bool) (expected : Shape) (answer : Option (List Byte)) (done : List Byte → State → Prop)
    (t : State) : Prop :=
  match answer with
  | none => t.fault = .transportError ∧ t.out = Outputs.empty
  | some R =>
    if (decodePass strict R).fault ≠ .none then t.fault = (decodePass strict R).fault ∧ t.out = Outputs.empty
    else if R.head? ≠ some magic1 then t.fault = .responseUnmarked ∧ t.out = Outputs.empty
    else if (decodePass strict R).frame.shape ≠ some expected ∨ need R ≠ some R.length then
      t.fault = .responseShape ∧ t.out = Outputs.empty
    else done R t

/-- The receive half and a verdict on it. The cursor behind a whole frame is where `NEED` says. -/
theorem receive_outcome (len : Nat) (expected : Shape) {u : State} {verdict : State → State}
    {done : List Byte → State → Prop} (h0 : u.fault = .none) (ho : u.out = Outputs.empty)
    (hdone : ∀ (R : List Byte) (v : State), v.fault = .none → v.rx = R → v.tx = u.tx → done R (verdict v).finish) :
    ReceiveOutcome u.cfg.strictUnknown expected (u.wire.read len).1 done
      ((receiveHalf len expected u).andThen verdict).finish := by
  rw [receiveHalf_eq len expected h0]
  cases (u.wire.read len).1 with
  | none =>
    rw [andThen_fault (by simp)]
    exact ⟨rfl, ho⟩
  | some R =>
    simp only [ReceiveOutcome]
    by_cases hf : (decodePass u.cfg.strictUnknown R).fault = .none
    · have hpos : (decodePass u.cfg.strictUnknown R).pos = R.length ↔ need R = some R.length := by
        rw [decodePass_pos hf, Option.some.injEq]
      simp only [hf, ne_eq, not_true_eq_false, if_false, ← hpos]
      split_ifs with hmark hshape
      · rw [andThen_fault (by simp)]
        exact ⟨rfl, ho⟩
      · rw [andThen_none (by exact h0)]
        exact hdone R _ h0 rfl rfl
      · rw [andThen_fault (by simp)]
        exact ⟨rfl, ho⟩
    · simp only [ne_eq, hf, not_false_eq_true, if_true]
      rw [andThen_fault (by exact hf)]
      exact ⟨rfl, ho⟩

end Sys2Proof.Machine
end

section
/-! SET_TARGET and SEND_SETTING (44_exchange R140 to R146, R163). Of the operands of SEND_SETTING, those admitted are the bytes and
words that R143 names, and the operation on them is one send half. -/

namespace Sys2Proof.Machine

/-! ## SET_TARGET -/

theorem exec_setTarget (id : Int) (s : State) :
    exec (.setTarget id) s = .next (runOp (isU8 id) (setTargetBody (byteOf id)) s) := rfl

/-- Settles O29: an idle block refuses nothing but an id outside u8, and the body only writes the target. -/
theorem setTargetStoresTheId : Obligations.SetTargetStoresTheId := by
  refine fun s id hi => ⟨fun b hb => ?_, fun hout => ?_⟩
  · rw [hb, exec_setTarget, isU8_toNat, byteOf_toNat, runOp_admitted hi, State.finish, ← hi]
    rfl
  · rw [exec_setTarget, runOp_refused (.inr ((isU8_eq_false_iff id).mpr hout))]
    rfl

/-! ## The operands of SEND_SETTING -/

/-- The codes whose requests carry three settings words (44_exchange R143). -/
def IsSettingCode (cmd : Byte) : Prop := family cmd = .reqSet ∨ family cmd = .reqCtl ∨ family cmd = .other

theorem shapeOf_settingCode {cmd : Byte} (h : IsSettingCode cmd) : shapeOf cmd = .settings := by
  unfold IsSettingCode at h
  revert cmd; apply byte_cases; decide +kernel

/-- A value that fits s32 is a word's value. -/
theorem exists_word_of_isS32 {v : Int} (h : isS32 v = true) : ∃ w : Word, v = w.toInt := by
  rw [isS32_iff] at h
  refine ⟨BitVec.ofInt 32 v, ?_⟩
  rw [BitVec.toInt_ofInt_eq_self (by decide) (by norm_num; omega) (by norm_num; omega)]

/-- What SEND_SETTING admits is a settings code other than the marker and three s32 words (44_exchange R143). -/
theorem sendAdmits_cases {command a b c : Int} (h : sendAdmits command a b c = true) :
    ∃ cmd : Byte, command = cmd.toNat ∧ cmd ≠ magic1 ∧ IsSettingCode cmd
      ∧ ∀ x ∈ [a, b, c], -2147483648 ≤ x ∧ x ≤ 2147483647 := by
  have hparts := h
  simp only [sendAdmits, Bool.and_eq_true] at hparts
  obtain ⟨⟨⟨⟨⟨⟨hu, -⟩, -⟩, -⟩, ha⟩, hb⟩, hc⟩ := hparts
  have hfit : ∀ x ∈ [a, b, c], -2147483648 ≤ x ∧ x ≤ 2147483647 := by
    simp only [List.forall_mem_cons, List.not_mem_nil, false_imp_iff, implies_true, and_true, ← isS32_iff]
    exact ⟨ha, hb, hc⟩
  obtain ⟨cmd, rfl⟩ := exists_byte_of_isU8 hu
  obtain ⟨wa, rfl⟩ := exists_word_of_isS32 ha
  obtain ⟨wb, rfl⟩ := exists_word_of_isS32 hb
  obtain ⟨wc, rfl⟩ := exists_word_of_isS32 hc
  obtain ⟨hm, hf⟩ := (sendAdmits_iff cmd wa wb wc).mp h
  exact ⟨cmd, rfl, hm, hf, hfit⟩

/-! ## The operation SEND_SETTING -/

theorem exec_sendSetting (command a b c : Int) (s : State) :
    exec (.sendSetting command a b c) s = .next (sendSettingState command a b c s) := rfl

/-- SEND_SETTING on admitted operands is a send half of the three words. -/
theorem exec_send {s : State} {target cmd : Byte} (a b c : Word) (hi : s.phase = .idle)
    (ht : s.targetId = some target) (hm : cmd ≠ magic1) (hf : IsSettingCode cmd) :
    exec (.sendSetting cmd.toNat a.toInt b.toInt c.toInt) s
      = .next (sendHalf (requestFrame cmd target (toLe32 a ++ toLe32 b ++ toLe32 c)) s.start).finish := by
  simp only [exec_sendSetting, sendSettingState, ht, (sendAdmits_iff cmd a b c).mpr ⟨hm, hf⟩, runOp_admitted hi,
    byteOf_toNat, wordOf_toInt]
  rfl

theorem sendSettingState_refused {s : State} {command a b c : Int}
    (h : s.targetId = none ∨ sendAdmits command a b c = false) : sendSettingState command a b c s = s.refuse := by
  unfold sendSettingState
  split
  · rfl
  next target ht => exact runOp_refused (.inr (h.resolve_left (by simp [ht])))

/-- Settles O30: the send half on a write that is taken. -/
theorem sendSettingWritesTheSealedFrame : Obligations.SendSettingWritesTheSealedFrame := by
  intro s target cmd a b c hi ht hm hf hw
  rw [exec_send a b c hi ht hm hf, sendHalf_of_accept target _ hm hw, requestSent, write_accept _ hw,
    shapeOf_settingCode hf]
  rfl

theorem exec_send_of_raise {s : State} {target cmd : Byte} (a b c : Word) {n : Nat} (hi : s.phase = .idle)
    (ht : s.targetId = some target) (hm : cmd ≠ magic1) (hf : IsSettingCode cmd) (hw : s.wire.writeAnswer = .raise n) :
    ∃ t, exec (.sendSetting cmd.toNat a.toInt b.toInt c.toInt) s = .next t
      ∧ WriteRaised (sealedRequest cmd target (toLe32 a ++ toLe32 b ++ toLe32 c)) n s t := by
  obtain ⟨hfault, hout, hwire⟩ := sendHalf_of_raise target (toLe32 a ++ toLe32 b ++ toLe32 c) hm hw
  exact ⟨_, exec_send a b c hi ht hm hf, hfault, hout, hwire⟩

/-- Settles O31: the send half on a write that raises; what an operation other than SET_TARGET keeps is kept here too. -/
theorem sendSettingReportsTransportError : Obligations.SendSettingReportsTransportError := by
  intro s target cmd a b c n hi ht hm hf hw
  obtain ⟨t, hx, hfault, hout, hwire⟩ := exec_send_of_raise a b c hi ht hm hf hw
  obtain ⟨hcfg, hinputs, htarget, -⟩ := exec_keeps hx (by simp)
  exact ⟨t, hx, hfault, hout, (exec_legal hx hi).1, htarget, hcfg, hinputs, hwire⟩

/-- Settles O32: each of the conditions contradicts the part of being admitted that it speaks of. -/
theorem sendSettingRefusedOutsideConditions : Obligations.SendSettingRefusedOutsideConditions := by
  intro s command a b c _ hbad
  refine congrArg _ (sendSettingState_refused (hbad.imp_right fun hbad => Bool.eq_false_of_not_eq_true fun hadm => ?_))
  obtain ⟨cmd, rfl, hm, hf, hfit⟩ := sendAdmits_cases hadm
  have hlt := cmd.isLt
  rcases hbad with h | h | h | ⟨cmd', he, hset, hctl, hother⟩ | h
  · omega
  · omega
  · exact hm (BitVec.eq_of_toNat_eq (by rw [show magic1.toNat = 170 from rfl]; omega))
  · obtain rfl : cmd = cmd' := BitVec.eq_of_toNat_eq (by exact_mod_cast he)
    exact hf.elim hset (Or.elim · hctl hother)
  · exact not_exists_outside hfit h

end Sys2Proof.Machine
end

section
/-! VERIFY_SETTING_RESPONSE (44_exchange R147 to R151, R162): a receive half that expects the settings shape, and its verdict. -/

namespace Sys2Proof.Machine

/-- The three echoed words against the expected values (44_exchange R148). -/
theorem flagValuesMatch_settingsBytes {F : Frame} {d : SettingsData} (hp : F.payload = settingsBytes d) (a b c : Int) :
    flagValuesMatch (regOf F) a b c = (d.data1.toInt == a && d.data2.toInt == b && d.data3.toInt == c) := by
  simp only [flagValuesMatch, regPayload, regOf, hp, Option.getD_some, settingsView_settingsBytes]
  rfl

/-- Settles O33: the receive half on a marked settings frame, and the verdict's two comparisons. -/
theorem verifyReportsWhetherTheEchoMatches : Obligations.VerifyReportsWhetherTheEchoMatches := by
  intro s command m cmd dev k d a b c hi hread hsh ha
  have hp : (settingsBytes d).length = payloadSize (shapeOf cmd) := by rw [hsh]; rfl
  have hreceive := receiveHalf_of_response (u := s.start) rfl hread hp ha
  rw [hsh] at hreceive
  rw [exec_verify command a b c hi, hreceive, andThen_none rfl]
  simp only [verdictOk, State.finish, ← hi, flagCheckOk_response]
  rw [flagValuesMatch_settingsBytes rfl]
  rfl

/-- Settles O34: the tests' order is the receive half's, and a command outside u8 is all the operation does not admit. -/
theorem verifyOutcomesInOrder : Obligations.VerifyOutcomesInOrder := by
  refine ⟨fun s command a b c hi => ?_, fun s command a b c hout => ?_⟩
  · have hx := exec_verify command a b c hi
    obtain ⟨hcfg, hinputs, htarget, -⟩ := exec_keeps hx (by simp)
    refine ⟨_, hx, ?_, htarget, hcfg, hinputs, rfl, ?_⟩
    · rw [State.finish_wire, andThen_wire (verdictOk_wire a b c), receiveHalf_wire _ _ rfl]
      rfl
    · exact receive_outcome (frameLength command) .settings (u := s.start) (verdict := verdictOk a b c)
        (done := fun R t => t.fault = .none ∧ t.out.ok.isSome = true ∧ t.rx = R ∧ t.tx = s.tx) rfl rfl
        fun R v hf hrx htx => ⟨hf, rfl, hrx, htx⟩
  · exact congrArg _ (runOp_refused (.inr ((isU8_eq_false_iff command).mpr hout)))

end Sys2Proof.Machine
end

section
/-! REQUEST_STATUS and I2C_EXCHANGE (44_exchange R152 to R160, R163). Both are one request and its response; they differ in the codes
they admit, in the payload they send, and in what they make of the payload they receive. -/

namespace Sys2Proof.Machine

/-! ## What the two operations admit -/

theorem family_reqRd_iff (c : Byte) : family c = .reqRd ↔ 0x40 ≤ c.toNat ∧ c.toNat ≤ 0x43 := by
  revert c; apply byte_cases; decide +kernel

theorem family_reqI2c_iff (c : Byte) : family c = .reqI2c ↔ 0x60 ≤ c.toNat ∧ c.toNat ≤ 0x63 := by
  revert c; apply byte_cases; decide +kernel

/-- A command of the given family is a byte of it; an operand that is no byte is no command. -/
theorem exists_command_of_family {command : Int} {f : Family} (h : (isU8 command && family (byteOf command) == f) = true) :
    ∃ cmd : Byte, command = cmd.toNat ∧ family cmd = f := by
  rw [Bool.and_eq_true, beq_iff_eq] at h
  obtain ⟨cmd, rfl⟩ := exists_byte_of_isU8 h.1
  exact ⟨cmd, rfl, byteOf_toNat cmd ▸ h.2⟩

theorem statusAdmits_toNat {cmd : Byte} (h : family cmd = .reqRd) : statusAdmits cmd.toNat = true := by
  simp [statusAdmits, h]

theorem i2cAdmits_toNat {cmd : Byte} {raw : List Byte} (h : family cmd = .reqI2c)
    (hraw : raw.length = payloadSize (shapeOf cmd)) : i2cAdmits cmd.toNat raw = true := by
  simp [i2cAdmits, h, hraw]

theorem shapeOf_reqRd {cmd : Byte} (h : family cmd = .reqRd) : shapeOf cmd = .readTrigger := by
  have hshape := statusAdmits_shape (statusAdmits_toNat h)
  rwa [byteOf_toNat] at hshape

/-! ## The operations -/

theorem exec_requestStatus (command : Int) (s : State) :
    exec (.requestStatus command) s
      = .next (requestResponse (statusAdmits command) (byteOf command) [s.cfg.readTrigger] statusResult s) := rfl

theorem exec_i2cExchange (command : Int) (raw : List Byte) (s : State) :
    exec (.i2cExchange command raw) s
      = .next (requestResponse (i2cAdmits command raw) (byteOf command) raw i2cResult s) := rfl

theorem requestResponse_refused {admitted : Bool} {s : State} (cmd : Byte) (p : List Byte)
    (result : FrameReg → Option Result) (h : s.targetId = none ∨ admitted = false) :
    requestResponse admitted cmd p result s = s.refuse := by
  unfold requestResponse
  split
  next target rc ht hr => exact runOp_refused (.inr (h.resolve_left (by simp [ht])))
  · rfl

/-- Settles O39: each of the conditions contradicts what is admitted. -/
theorem statusAndI2cRefusedOutsideConditions : Obligations.StatusAndI2cRefusedOutsideConditions := by
  refine fun s command raw _ => ⟨fun hbad => ?_, fun hbad => ?_⟩
  · refine congrArg _ (requestResponse_refused _ _ _
      (hbad.imp_right fun hout => Bool.eq_false_of_not_eq_true fun hadm => ?_))
    obtain ⟨cmd, rfl, hf⟩ := exists_command_of_family hadm
    rw [family_reqRd_iff] at hf
    omega
  · refine congrArg _ (requestResponse_refused _ _ _
      (hbad.imp_right fun hout => Bool.eq_false_of_not_eq_true fun hadm => ?_))
    rw [i2cAdmits, Bool.and_eq_true, beq_iff_eq] at hadm
    obtain ⟨cmd, rfl, hf⟩ := exists_command_of_family hadm.1
    rw [family_reqI2c_iff] at hf
    rcases hout with h | h | h
    · omega
    · omega
    · exact h hadm.2

/-- The instruction `i` is the exchange of the command `cmd` with the payload `p`, issued under the parameters `cfg`; `result` is
what it makes of the response (44_exchange R152, R154, R160). -/
inductive IsRequest (cfg : Config) (i : Instr) (cmd : Byte) (p : List Byte) : (FrameReg → Option Result) → Prop
  | status (hf : family cmd = .reqRd) (hi : i = .requestStatus cmd.toNat) (hp : p = [cfg.readTrigger]) :
    IsRequest cfg i cmd p statusResult
  | i2c (hf : family cmd = .reqI2c) (hi : i = .i2cExchange cmd.toNat p) (hp : p.length = payloadSize (shapeOf cmd)) :
    IsRequest cfg i cmd p i2cResult

section Exchange

variable {s : State} {i : Instr} {target cmd : Byte} {p : List Byte} {result : FrameReg → Option Result}

/-- What such an instruction runs on: the request sent, the response received, the verdict given. -/
def exchangeBody (cmd target : Byte) (p : List Byte) (result : FrameReg → Option Result) (s : State) : State :=
  ((sendHalf (requestFrame cmd target p) s).andThen
    (receiveHalf (frameLength (cmd + 0x10#8)) (shapeOf (cmd + 0x10#8)))).andThen (verdictValid result)

theorem IsRequest.family_cases (h : IsRequest s.cfg i cmd p result) : family cmd = .reqRd ∨ family cmd = .reqI2c := by
  cases h with
  | status hf => exact .inl hf
  | i2c hf => exact .inr hf

theorem IsRequest.requestFamily (h : IsRequest s.cfg i cmd p result) : isRequestFamily (family cmd) = true := by
  rcases h.family_cases with hf | hf <;> rw [hf] <;> rfl

theorem IsRequest.ne_magic1 (h : IsRequest s.cfg i cmd p result) : cmd ≠ magic1 :=
  ne_magic1_of_request h.requestFamily

theorem IsRequest.respCode_eq (h : IsRequest s.cfg i cmd p result) : respCode cmd = some (cmd + 0x10#8) :=
  if_pos h.requestFamily

/-- The response code has a family, so no mode of the decoder turns it away. -/
theorem IsRequest.accepts (h : IsRequest s.cfg i cmd p result) (strict : Bool) : accepts strict (cmd + 0x10#8) := by
  obtain ⟨-, -, -, -, hrd, hi2c⟩ := responseFamily_of_request cmd h.requestFamily
  rcases h.family_cases with hf | hf
  · exact .inr (by rw [hrd hf]; decide)
  · exact .inr (by rw [hi2c hf]; decide)

theorem requestResponse_admitted (hi : s.phase = .idle) (ht : s.targetId = some target)
    (hr : respCode cmd = some (cmd + 0x10#8)) (p : List Byte) (result : FrameReg → Option Result) :
    requestResponse true cmd p result s = (exchangeBody cmd target p result s.start).finish := by
  simp only [requestResponse, ht, hr, runOp_admitted hi]
  rfl

theorem exec_exchange (h : IsRequest s.cfg i cmd p result) (hi : s.phase = .idle) (ht : s.targetId = some target) :
    exec i s = .next (exchangeBody cmd target p result s.start).finish := by
  have hr := h.respCode_eq
  cases h with
  | status hf he hp =>
    rw [he, hp, exec_requestStatus, statusAdmits_toNat hf, byteOf_toNat, requestResponse_admitted hi ht hr]
  | i2c hf he hp =>
    rw [he, exec_i2cExchange, i2cAdmits_toNat hf hp, byteOf_toNat, requestResponse_admitted hi ht hr]

theorem IsRequest.ne_setTarget (h : IsRequest s.cfg i cmd p result) (id : Int) : i ≠ .setTarget id := by
  cases h with
  | status _ he => simp [he]
  | i2c _ he => simp [he]

/-- A write that raises ends the exchange there. -/
theorem exec_exchange_of_raise (h : IsRequest s.cfg i cmd p result) {n : Nat} (hi : s.phase = .idle)
    (ht : s.targetId = some target) (hw : s.wire.writeAnswer = .raise n) :
    ∃ t, exec i s = .next t ∧ WriteRaised (sealedRequest cmd target p) n s t := by
  obtain ⟨hfault, hout, hwire⟩ := sendHalf_of_raise target p h.ne_magic1 hw
  have hstop : (sendHalf (requestFrame cmd target p) s.start).fault ≠ .none := by rw [hfault]; decide
  refine ⟨_, exec_exchange h hi ht, ?_⟩
  rw [exchangeBody, andThen_fault hstop, andThen_fault hstop]
  exact ⟨hfault, hout, hwire⟩

/-- A write that is taken: the response is received behind the request sent. -/
theorem exec_exchange_of_accept (h : IsRequest s.cfg i cmd p result) (hi : s.phase = .idle)
    (ht : s.targetId = some target) (hw : s.wire.writeAnswer = .accept) :
    exec i s = .next
      ((receiveHalf (frameLength (cmd + 0x10#8)) (shapeOf (cmd + 0x10#8)) (requestSent cmd target p s)).andThen
        (verdictValid result)).finish := by
  rw [exec_exchange h hi ht, exchangeBody, sendHalf_of_accept target p h.ne_magic1 hw,
    andThen_none (s := requestSent cmd target p s) rfl]

/-- The exchange on the response of its code, whatever the checksum. -/
theorem exec_exchange_of_response (h : IsRequest s.cfg i cmd p result) {m dev k : Byte} {q : List Byte}
    (hi : s.phase = .idle) (ht : s.targetId = some target) (hw : s.wire.writeAnswer = .accept)
    (hq : q.length = payloadSize (shapeOf (cmd + 0x10#8)))
    (hread : (s.wire.read (4 + q.length + 1)).1
      = some (magic1 :: m :: (cmd + 0x10#8) :: dev :: (q ++ [k]))) :
    exec i s = .next
      { sent cmd target (shapeOf cmd) p
          ((s.wire.write (sealedRequest cmd target p)).2.read (4 + q.length + 1)).2 s with
        c := checksum ((cmd + 0x10#8) :: dev :: q)
        pos := 4 + q.length + 1
        frame := regOf ⟨magic1, some m, some (cmd + 0x10#8), dev, shapeOf (cmd + 0x10#8), q, k⟩
        rx := magic1 :: m :: (cmd + 0x10#8) :: dev :: (q ++ [k])
        out :=
          { Outputs.empty with
            valid := some (k == checksum ((cmd + 0x10#8) :: dev :: q))
            result :=
              if k = checksum ((cmd + 0x10#8) :: dev :: q) then
                result (regOf ⟨magic1, some m, some (cmd + 0x10#8), dev, shapeOf (cmd + 0x10#8), q, k⟩)
              else none } } := by
  have hlen : frameLength (cmd + 0x10#8) = 4 + q.length + 1 := by
    rw [hq]
    exact respCode_length h.respCode_eq
  rw [← read_after_write _ (sealedRequest cmd target p)] at hread
  rw [exec_exchange_of_accept h hi ht hw, hlen, receiveHalf_of_response rfl hread hq (h.accepts _), andThen_none rfl]
  simp only [verdictValid, flagCheckOk_response, beq_iff_eq]
  rfl

end Exchange

/-! ## What the operations make of a response -/

/-- A status read's result, by the readback's code (45_scaling_surface R181 to R183). -/
theorem statusResult_readback {cmd : Byte} (h : family cmd = .reqRd) (m dev k : Byte) (p : List Byte) :
    statusResult (regOf ⟨magic1, some m, some (cmd + 0x10#8), dev, shapeOf (cmd + 0x10#8), p, k⟩)
      = some
        (if cmd = 0x40#8 then
          .motorStatus (((le32 p 0).toInt : Rat) / 100) (((le32 p 4).toInt : Rat) / 100)
            (((le32 p 8).toInt : Rat) / 100) (p.getD 12 0) (p.getD 13 0) (p.getD 14 0)
        else if cmd = 0x41#8 then
          .otherStatus (le32 p 0).toNat (le32 p 4).toInt (le32 p 8).toInt
            (p.getD 12 0) (p.getD 13 0) (p.getD 14 0)
        else
          .pid (((le32 p 0).toNat : Rat) / 100000) (((le32 p 4).toNat : Rat) / 100000)
            (((le32 p 8).toNat : Rat) / 100000) (p.getD 12 0) (p.getD 13 0) (p.getD 14 0)) := by
  have hcodes : ∀ c : Byte, family c = .reqRd → c = 0x40#8 ∨ c = 0x41#8 ∨ c = 0x42#8 ∨ c = 0x43#8 := by
    apply byte_cases; decide +kernel
  rcases hcodes cmd h with rfl | rfl | rfl | rfl <;> rfl

theorem payloadSize_readback {cmd : Byte} (h : family cmd = .reqRd) : payloadSize (shapeOf (cmd + 0x10#8)) = 15 := by
  revert cmd; apply byte_cases; decide +kernel

/-- Settles O36: the exchange on a readback, and the result by its code. -/
theorem requestStatusReturnsTheDescaledReadback : Obligations.RequestStatusReturnsTheDescaledReadback := by
  intro s target cmd m dev k p hi ht hf hw hp hread
  have hlen : 4 + p.length + 1 = 20 := by rw [hp]
  have hx := exec_exchange_of_response (m := m) (dev := dev) (k := k) (q := p) (.status hf rfl rfl) hi ht hw
    (hp.trans (payloadSize_readback hf).symm) (hlen ▸ hread)
  rw [hlen, statusResult_readback hf, shapeOf_reqRd hf] at hx
  exact hx

/-- Settles O37: the exchange on an I2C response; the result is the payload held in the register. -/
theorem i2cExchangeReturnsTheRawPayload : Obligations.I2cExchangeReturnsTheRawPayload := by
  intro s target cmd m dev k raw p hi ht hf hraw hw hp hread
  exact exec_exchange_of_response (.i2c hf rfl hraw) hi ht hw hp hread

/-- The request is on the bus whatever the receive half does. -/
theorem exec_exchange_outcome {s : State} {i : Instr} {target cmd : Byte} {p : List Byte}
    {result : FrameReg → Option Result} (h : IsRequest s.cfg i cmd p result) (hi : s.phase = .idle)
    (ht : s.targetId = some target) (hw : s.wire.writeAnswer = .accept) :
    ∃ t, exec i s = .next t ∧ t.wire.outgoing = s.wire.outgoing ++ sealedRequest cmd target p
      ∧ ReceiveOutcome s.cfg.strictUnknown (shapeOf (cmd + 0x10#8)) (s.wire.read (frameLength (cmd + 0x10#8))).1
          (fun _ t => t.fault = .none ∧ t.out.valid.isSome = true) t := by
  refine ⟨_, exec_exchange_of_accept h hi ht hw, ?_, ?_⟩
  · rw [State.finish_wire, andThen_wire (verdictValid_wire result), receiveHalf_wire _ _ rfl, (read_spec _ _).1]
    exact congrArg Transport.outgoing (congrArg Prod.snd (write_accept _ hw))
  · rw [← read_after_write _ (sealedRequest cmd target p)]
    exact receive_outcome _ _ (u := requestSent cmd target p s) (verdict := verdictValid result) rfl rfl
      fun R v hf _ _ => ⟨hf, rfl⟩

/-- Settles O38: the write's two answers, and behind a write that is taken the tests of the receive half. -/
theorem requestAndResponseFaultsInOrder : Obligations.RequestAndResponseFaultsInOrder := by
  intro s target cmd i p hi ht hkind
  obtain ⟨result, h⟩ : ∃ result, IsRequest s.cfg i cmd p result := by
    rcases hkind with ⟨hf, he, hp⟩ | ⟨hf, he, hp⟩
    · exact ⟨_, .status hf he hp⟩
    · exact ⟨_, .i2c hf he hp⟩
  have hx := exec_exchange h hi ht
  obtain ⟨hcfg, hinputs, htarget, -⟩ := exec_keeps hx h.ne_setTarget
  refine ⟨_, hx, htarget, hcfg, hinputs, rfl, fun n hw => ?_, fun hw => ?_⟩
  · obtain ⟨t, hx', hfault, hout, hwire⟩ := exec_exchange_of_raise h hi ht hw
    obtain rfl : _ = t := by simpa only [hx, Host.Outcome.next.injEq] using hx'
    exact ⟨hfault, hout, by rw [hwire]; rfl, by rw [hwire]⟩
  · obtain ⟨t, hx', hsent, hend⟩ := exec_exchange_outcome h hi ht hw
    obtain rfl : _ = t := by simpa only [hx, Host.Outcome.next.injEq] using hx'
    exact ⟨hsent, hend⟩

end Sys2Proof.Machine
end

section
/-! The setting exchange of the command surface (44_exchange R157; 45_scaling_surface R191), and the exchange operations on a closed
transport (44_exchange R159; 70_reset_and_hazards R232). -/

namespace Sys2Proof.Machine

/-! ## The response code of a setting's plan -/

theorem respCode_of_settingPlan {code₀ code resp : Byte} {a b c w1 w2 w3 : Int}
    (h : settingPlan code₀ a b c = some (.setting code resp w1 w2 w3)) : respCode code = some resp := by
  obtain ⟨rc, hp, hr, -⟩ := settingPlan_eq_some h
  cases hp
  exact hr

/-- A setting is verified against the response code of its own code: the pseudo-operations that send one place their words by
`settingPlan`, where their arguments have a meaning. -/
theorem respCode_of_plan {cfg : Config} {op : SurfaceOp} {code resp : Byte} {w1 w2 w3 : Int}
    (h : plan cfg op = some (.setting code resp w1 w2 w3)) : respCode code = some resp := by
  cases op
  case motor on =>
    cases on with
    | true => exact respCode_of_settingPlan h
    | false => exact respCode_of_settingPlan h
  case commitFlash => exact respCode_of_settingPlan h
  case readMotorStatus | readAuxStatus | readSpeedPid | readPositionPid => cases h
  case i2cReadRegister | i2cWriteRegister | i2cReadRaw | i2cWriteRaw =>
    simp only [plan, i2cPlan] at h
    split at h <;> cases h
  case setMode | removeProtection | setEncoderCount | setButtonMode | setRgb | setBaudRate | setDeviceId | jamProtection
  | rangeProtection | setSpeed | setSpeedPid | setPosition | setPositionPid | setCurrent =>
    simp only [plan, integerPlan, scaledPlan, bytePlan, gainsPlan, targetPlan, currentPlan, rgbPlan] at h
    split at h
    · exact respCode_of_settingPlan h
    · cases h

/-! ## A pseudo-operation, taken by a step -/

theorem step_of_surface {s : State} {op : SurfaceOp} {rest : List Input} (h : s.inputs = .surface op :: rest) :
    step s = .next (surfaceState op { s with inputs := rest }) := by
  rw [step_of_cons h, dropInput_of_cons h]
  rfl

/-- Settles O57: the step runs the setting's two operations one after the other, or refuses where there is no plan. -/
theorem surfaceSettingSendsThenVerifiesTheSameWords : Obligations.SurfaceSettingSendsThenVerifiesTheSameWords := by
  refine ⟨fun s u op rest code resp w1 w2 w3 hin hplan hsend => ?_, fun s op rest hin hplan => ?_⟩
  · have hstep : step s = .next (settingExchange code resp w1 w2 w3 { s with inputs := rest }) := by
      rw [step_of_surface hin]
      simp only [surfaceState, hplan, runPlan]
    obtain rfl : sendSettingState code.toNat w1 w2 w3 { s with inputs := rest } = u := by
      injection hsend
    refine ⟨respCode_of_plan hplan, fun hfault => ?_, fun hfault => ?_⟩
    · rw [hstep, settingExchange, andThen_fault hfault]
    · rw [hstep, settingExchange, andThen_none hfault]
      rfl
  · rw [step_of_surface hin]
    simp only [surfaceState, hplan]
    rfl

/-! ## The exchange operations on a closed transport -/

/-- Settles O60: a closed transport raises on either call, and each operation ends where its first call raised. -/
theorem closedTransportEndsExchangesWithTransportError :
    Obligations.ClosedTransportEndsExchangesWithTransportError := by
  intro s cmd hi hclosed
  refine ⟨fun a b c => ?_, ?_⟩
  · obtain ⟨arrivals, taken, hr⟩ := readAnswer_closed hclosed
    have hread := read_raise (frameLength cmd) hr
    obtain ⟨t, hx, hwire, -, -, -, -, hend⟩ := verifyOutcomesInOrder.1 s cmd a b c hi
    rw [hread] at hend
    obtain ⟨hfault, hout⟩ := hend
    exact ⟨t, arrivals, taken, hx, hfault, hout, hr, hwire, by rw [hwire, hread]⟩
  · obtain ⟨n, hw⟩ := writeAnswer_closed hclosed
    refine ⟨n, hw, fun target ht => ⟨fun a b c hm hf => ?_, fun raw hf hraw => ?_, fun hf => ?_⟩⟩
    · obtain ⟨t, hx, hfault, hout, hwire⟩ := exec_send_of_raise a b c hi ht hm hf hw
      exact ⟨t, hx, hfault, hout, hwire⟩
    · obtain ⟨t, hx, hfault, hout, hwire⟩ := exec_exchange_of_raise (.i2c hf rfl hraw) hi ht hw
      exact ⟨t, hx, hfault, hout, hwire⟩
    · obtain ⟨t, hx, hfault, hout, hwire⟩ := exec_exchange_of_raise (.status hf rfl rfl) hi ht hw
      exact ⟨t, hx, hfault, hout, hwire⟩

end Sys2Proof.Machine
end

section
/-! The scaled words and the packed colour word (45_scaling_surface R172 to R180). Truncation is floor above zero and ceiling below it, a
clamp is a `max` of a `min`, and a sum of four weighted bytes is the little-endian word of those bytes. -/

namespace Sys2Proof.Machine

/-! ## Truncation and clamping -/

/-- Truncation toward zero is the floor from zero on and the ceiling below zero (45_scaling_surface R179). -/
theorem truncRat_eq_floor_or_ceil (q : Rat) : truncRat q = if 0 ≤ q then ⌊q⌋ else ⌈q⌉ := by
  obtain ⟨hnonneg, hnonpos⟩ := truncRat_spec q
  split_ifs with h
  · obtain ⟨-, hle, hlt⟩ := hnonneg h
    exact (Int.floor_eq_iff.mpr ⟨hle, hlt⟩).symm
  · obtain ⟨-, hle, hlt⟩ := hnonpos (not_le.mp h).le
    exact (Int.ceil_eq_iff.mpr ⟨hlt, hle⟩).symm

theorem clampRat_eq {lo hi : Rat} (x : Rat) (h : lo ≤ hi) : clampRat x lo hi = max lo (min x hi) := by
  unfold clampRat
  split_ifs with hlo hhi
  · rw [min_eq_left (hlo.le.trans h), max_eq_left hlo.le]
  · rw [min_eq_right hhi.le, max_eq_right h]
  · rw [min_eq_left (not_lt.mp hhi), max_eq_right (not_lt.mp hlo)]

/-! ## The x100 words and the gain word -/

/-- An x100 word: the clamped value times 100, truncated toward zero (45_scaling_surface R172, R174, R179). -/
theorem wire100_eq {lo hi : Rat} (x : Rat) (h : lo ≤ hi) :
    wire100 x lo hi
      = if 0 ≤ max lo (min x hi) * 100 then ⌊max lo (min x hi) * 100⌋ else ⌈max lo (min x hi) * 100⌉ := by
  rw [wire100, clampRat_eq x h, truncRat_eq_floor_or_ceil]

/-- Speed and position have one scale and one range (45_scaling_surface R172). -/
theorem wirePosition_eq_wireSpeed (x : Rat) : wirePosition x = wireSpeed x := rfl

theorem wireSpeed_mem (x : Rat) : -2100000000 ≤ wireSpeed x ∧ wireSpeed x ≤ 2100000000 := by
  simpa [wireSpeed] using wire100_mem (lo := -21000000) (hi := 21000000) x (by decide)

theorem wireCurrent_mem (x : Rat) : -120000 ≤ wireCurrent x ∧ wireCurrent x ≤ 120000 := by
  simpa [wireCurrent] using wire100_mem (lo := -1200) (hi := 1200) x (by decide)

theorem wireSpeed_div {w : Int} (h1 : -2100000000 ≤ w) (h2 : w ≤ 2100000000) : wireSpeed ((w : Rat) / 100) = w := by
  simpa [wireSpeed] using wire100_div (lo := -21000000) (hi := 21000000) h1 h2

theorem wireCurrent_div {w : Int} (h1 : -120000 ≤ w) (h2 : w ≤ 120000) : wireCurrent ((w : Rat) / 100) = w := by
  simpa [wireCurrent] using wire100_div (lo := -1200) (hi := 1200) h1 h2

theorem wireGain_div (w : Int) : wireGain ((w : Rat) / 100000) = w := by
  rw [wireGain, div_mul_cancel₀ _ (by norm_num), truncRat_intCast]

/-- Settles O52: truncation and clamp as R174 and R179 say them, and the range that the clamp leaves to an x100 word. -/
theorem scaledWordsAreClampedAndTruncated : Obligations.ScaledWordsAreClampedAndTruncated := by
  refine ⟨fun x => ⟨wire100_eq x (by norm_num), wire100_eq x (by norm_num), wire100_eq x (by norm_num),
    truncRat_eq_floor_or_ceil _, wireSpeed_mem x, wireSpeed_mem x, wireCurrent_mem x⟩, ?_, ?_, ?_⟩ <;> decide +kernel

/-- Settles O53: a word in the range of its clamp is the word of its own physical value. -/
theorem wirePhysicalWireIsExact : Obligations.WirePhysicalWireIsExact :=
  ⟨fun _ h1 h2 => ⟨wireSpeed_div h1 h2, wireSpeed_div h1 h2⟩, fun _ h1 h2 => wireCurrent_div h1 h2, wireGain_div⟩

/-! ## The packed colour word -/

theorem packRgb_eq (r g b mode : Int) :
    packRgb r g b mode
      = max 0 (min r 255) + max 0 (min g 255) * 256 + max 0 (min b 255) * 65536 + max 0 (min mode 1) * 16777216 := by
  simp only [packRgb, clampInt_eq _ (show (0 : Int) ≤ 255 by decide), clampInt_eq _ (show (0 : Int) ≤ 1 by decide)]

theorem toNat_append_byte {n : Nat} (x : BitVec n) (y : Byte) : (x ++ y).toNat = x.toNat * 256 + y.toNat := by
  rw [BitVec.toNat_append, ← Nat.shiftLeft_add_eq_or_of_lt y.isLt, Nat.shiftLeft_eq]

/-- The word of four weighted bytes is those bytes one behind the other, the heaviest first (20_memory R31). -/
theorem wordOf_weighted_bytes (a b c d : Byte) :
    wordOf (a.toNat + b.toNat * 256 + c.toNat * 65536 + d.toNat * 16777216) = d ++ c ++ b ++ a := by
  have ha := a.isLt
  have hb := b.isLt
  have hc := c.isLt
  have hd := d.isLt
  apply BitVec.eq_of_toNat_eq
  simp only [wordOf, BitVec.toNat_ofInt, toNat_append_byte]
  omega

/-- Values that fit a byte each, weighted and summed, are the bytes of the word on the wire, the low one first. -/
theorem toLe32_wordOf_weighted {a b c d : Int} (ha : isU8 a = true) (hb : isU8 b = true) (hc : isU8 c = true)
    (hd : isU8 d = true) :
    toLe32 (wordOf (a + b * 256 + c * 65536 + d * 16777216)) = [byteOf a, byteOf b, byteOf c, byteOf d] := by
  obtain ⟨a, rfl⟩ := exists_byte_of_isU8 ha
  obtain ⟨b, rfl⟩ := exists_byte_of_isU8 hb
  obtain ⟨c, rfl⟩ := exists_byte_of_isU8 hc
  obtain ⟨d, rfl⟩ := exists_byte_of_isU8 hd
  rw [wordOf_weighted_bytes, toLe32_append]
  simp only [byteOf_toNat]

theorem isU8_clamp (x : Int) {hi : Int} (h0 : 0 ≤ hi) (h : hi ≤ 255) : isU8 (max 0 (min x hi)) = true := by
  rw [isU8_iff]; omega

/-- Settles O54: each clamped channel is a byte, and the packed word is their weighted sum. -/
theorem packedColourBytesInOrder : Obligations.PackedColourBytesInOrder := by
  refine ⟨fun r g b mode => ?_, by decide, by decide, by decide⟩
  rw [packRgb_eq]
  exact ⟨rfl, by omega, by omega, toLe32_wordOf_weighted (isU8_clamp r (by decide) (by decide))
    (isU8_clamp g (by decide) (by decide)) (isU8_clamp b (by decide) (by decide))
    (isU8_clamp mode (by decide) (by decide))⟩

end Sys2Proof.Machine
end

section
/-! The settings of the command surface under the default use of `data1..3` (45_scaling_surface R190 rows 1 to 16): the words each sends,
in order, and the arguments that leave it without a meaning. -/

namespace Sys2Proof.Machine

/-! ## Arguments without a meaning -/

@[simp] theorem physRat_nonFinite : physRat .nonFinite = none := rfl

@[simp] theorem physInt_nonFinite : physInt .nonFinite = none := rfl

theorem physInt_eq_none_of_not_integer {q : Rat} (h : ∀ z : Int, (z : Rat) ≠ q) : physInt (.finite q) = none :=
  if_neg fun hden => h q.num (Rat.den_eq_one_iff q |>.mp hden)

theorem integerPlan_eq_none (code : Byte) (use : WordUse) {x : Phys} (h : physInt x = none) :
    integerPlan code use x = none := by
  rw [integerPlan, h]

theorem scaledPlan_eq_none (code : Byte) (use : WordUse) (scale : Rat) {x : Phys} (h : physInt x = none) :
    scaledPlan code use scale x = none := by
  rw [scaledPlan, h]

theorem bytePlan_eq_none (code : Byte) (use : WordUse) {x : Phys} (h : physInt x = none) :
    bytePlan code use x = none := by
  rw [bytePlan, h]

theorem currentPlan_nonFinite (code : Byte) (use : WordUse) : currentPlan code use .nonFinite = none := rfl

/-- One channel without a meaning is enough. -/
theorem rgbPlan_eq_none (code : Byte) (use : WordUse) {r g b mode light : Phys}
    (h : ∃ x ∈ [r, g, b, mode, light], physInt x = none) : rgbPlan code use r g b mode light = none := by
  unfold rgbPlan
  split
  · simp_all
  · rfl

theorem targetPlan_eq_none (code : Byte) (use : WordUse) (scale : Rat → Int) {x m : Phys}
    (h : ∃ y ∈ [x, m], physRat y = none) : targetPlan code use scale x m = none := by
  unfold targetPlan
  split
  · simp_all
  · rfl

theorem gainsPlan_eq_none (code : Byte) (use : WordUse) {p i d : Phys}
    (h : ∃ y ∈ [p, i, d], physRat y = none) : gainsPlan code use p i d = none := by
  unfold gainsPlan
  split
  · simp_all
  · rfl

/-! ## Words by order -/

/-- The zeros that pad the arguments stand where the use by order has its own zeros (45_scaling_surface R190). -/
theorem placedPlan_byOrder_one (code : Byte) (a : Int) :
    placedPlan code (useByOrder 1) [a, 0, 0] = settingPlan code a 0 0 := rfl

theorem placedPlan_byOrder_two (code : Byte) (a b : Int) :
    placedPlan code (useByOrder 2) [a, b, 0] = settingPlan code a b 0 := rfl

/-! ## The statement -/

/-- A setting of a request code is sent exactly where each of its words fits s32 (45_scaling_surface R178). -/
theorem settingPlan_eq_if_words_fit {code : Byte} (h : family code = .reqSet ∨ family code = .reqCtl) (a b c : Int) :
    settingPlan code a b c
      = if ∀ w ∈ [a, b, c], -2147483648 ≤ w ∧ w ≤ 2147483647 then some (.setting code (code + 0x10#8) a b c)
        else none := by
  rw [settingPlan_of_request h]
  refine if_congr ?_ rfl rfl
  simp only [Bool.and_eq_true, isS32_iff, List.forall_mem_cons, List.not_mem_nil, false_imp_iff, implies_true, and_true,
    and_assoc]

/-- Settles O55: each row is a setting of its three words, and an argument without a meaning leaves none of them. -/
theorem surfaceWordsAreClampedScaledAndChecked : Obligations.SurfaceWordsAreClampedScaledAndChecked := by
  intro cfg n mode r g b light x m p i d hwords
  refine ⟨fun row hrow hfam => ?_, fun op hop => ?_, ?_⟩
  · have hplan : plan cfg row.1 = settingPlan row.2.1 row.2.2.1 row.2.2.2.1 row.2.2.2.2 := by
      clear hfam
      revert row
      simp only [List.forall_mem_cons, List.not_mem_nil, false_imp_iff, implies_true, and_true, plan, hwords,
        defaultSurfaceWords, integerPlan_intCast, scaledPlan_intCast, bytePlan_intCast, rgbPlan_intCast,
        targetPlan_finite, gainsPlan_finite, currentPlan_finite, placedPlan_one, placedPlan_byOrder_one,
        placedPlan_byOrder_two, placedPlan_three, mul_one, truncRat_intCast]
    rw [hplan]
    exact settingPlan_eq_if_words_fit hfam _ _ _
  · have hnone : ∀ y, physInt y = none → plan cfg (op y) = none := by
      revert op
      simp only [List.forall_mem_cons, List.not_mem_nil, false_imp_iff, implies_true, and_true, plan]
      refine ⟨fun _ => integerPlan_eq_none _ _, fun _ => bytePlan_eq_none _ _, fun _ => scaledPlan_eq_none _ _ _,
        fun _ => integerPlan_eq_none _ _, fun _ => integerPlan_eq_none _ _, fun _ => bytePlan_eq_none _ _,
        fun _ => integerPlan_eq_none _ _, fun _ => integerPlan_eq_none _ _, ?_, ?_, ?_, ?_, ?_⟩
      all_goals exact fun y hy => rgbPlan_eq_none _ _ ⟨y, by simp, hy⟩
    exact ⟨hnone _ physInt_nonFinite, fun q hq => hnone _ (physInt_eq_none_of_not_integer hq)⟩
  · simp only [List.forall_mem_cons, List.not_mem_nil, false_imp_iff, implies_true, and_true, plan]
    refine ⟨?_, ?_, ?_, ?_, currentPlan_nonFinite _ _, ?_, ?_, ?_, ?_, ?_, ?_⟩
    case refine_1 | refine_2 | refine_3 | refine_4 => exact targetPlan_eq_none _ _ _ ⟨.nonFinite, by simp, rfl⟩
    all_goals exact gainsPlan_eq_none _ _ ⟨.nonFinite, by simp, rfl⟩

end Sys2Proof.Machine
end

section
/-! The I2C pseudo-operations and the status reads of the command surface (45_scaling_surface R192, R193; 30_encoding R70): the
limits of the arguments, the payload bytes that the default overlay lays them into, and the fields it reads from a completed
exchange. -/

namespace Sys2Proof.Machine

/-! ## The limits of the arguments -/

/-- A register address of as many bytes as its length says, at most two (45_scaling_surface R193; log 24). -/
theorem regAddr_fits_iff (a : I2cArgs) :
    (a.regLen ≤ 2 ∧ a.regAddr < 256 ^ a.regLen)
      ↔ a.regLen = 0 ∧ a.regAddr = 0 ∨ a.regLen = 1 ∧ a.regAddr < 256 ∨ a.regLen = 2 ∧ a.regAddr < 65536 := by
  constructor
  · rintro ⟨hlen, haddr⟩
    interval_cases a.regLen <;> omega
  · rintro (⟨h, ha⟩ | ⟨h, ha⟩ | ⟨h, ha⟩) <;> rw [h] <;> omega

theorem i2cArgsOk_raw_iff (a : I2cArgs) :
    i2cArgsOk false a = true
      ↔ a.addr < 256 ∧ (a.regLen = 0 ∧ a.regAddr = 0 ∨ a.regLen = 1 ∧ a.regAddr < 256 ∨ a.regLen = 2 ∧ a.regAddr < 65536)
        ∧ a.dataLen ≤ 16 ∧ a.data.length ≤ 16 := by
  rw [← regAddr_fits_iff]
  simp only [i2cArgsOk, Bool.and_eq_true, Bool.or_eq_true, Bool.not_false, true_or, decide_eq_true_eq, and_true, and_assoc]

theorem i2cArgsOk_addressed_iff (a : I2cArgs) :
    i2cArgsOk true a = true
      ↔ a.addr < 256 ∧ (a.regLen = 1 ∧ a.regAddr < 256 ∨ a.regLen = 2 ∧ a.regAddr < 65536)
        ∧ a.dataLen ≤ 16 ∧ a.data.length ≤ 16 := by
  have hraw : i2cArgsOk true a = true ↔ i2cArgsOk false a = true ∧ 1 ≤ a.regLen := by
    simp only [i2cArgsOk, Bool.and_eq_true, Bool.or_eq_true, Bool.not_false, Bool.not_true, Bool.false_eq_true, true_or,
      false_or, decide_eq_true_eq]
    tauto
  rw [hraw, i2cArgsOk_raw_iff]
  omega

theorem data_length_of_ok {addressed : Bool} {a : I2cArgs} (h : i2cArgsOk addressed a = true) : a.data.length ≤ 16 := by
  rw [i2cArgsOk, Bool.and_eq_true, decide_eq_true_eq] at h
  exact h.2

theorem i2cPlan_of_not_ok {cfg : Config} {addressed : Bool} {a : I2cArgs} (h : ¬ i2cArgsOk addressed a = true)
    (code : Byte) : i2cPlan cfg code addressed a = none := if_neg h

/-! ## The bytes that the default overlay lays out -/

/-- The first byte of a number is its remainder. -/
theorem byte_ofNat_mod (n : Nat) : BitVec.ofNat 8 (n % 256) = BitVec.ofNat 8 n :=
  BitVec.eq_of_toNat_eq (by simp)

theorem stopByte_eq (stop : Bool) : BitVec.ofNat 8 (if stop then 1 else 0) = if stop then 0x01#8 else 0x00#8 := by
  cases stop <;> rfl

/-- A register read sends five bytes (30_encoding R70). -/
theorem layRaw_rdregReq (a : I2cArgs) :
    layRaw defaultFieldMap.rdregReq 5 a
      = [BitVec.ofNat 8 a.addr, BitVec.ofNat 8 a.regLen, BitVec.ofNat 8 (a.regAddr % 256),
          BitVec.ofNat 8 (a.regAddr / 256), BitVec.ofNat 8 a.dataLen] := by
  rw [byte_ofNat_mod]
  rfl

/-- A raw read sends two bytes (30_encoding R70). -/
theorem layRaw_rdrawReq (a : I2cArgs) :
    layRaw defaultFieldMap.rdrawReq 2 a = [BitVec.ofNat 8 a.addr, BitVec.ofNat 8 a.dataLen] := rfl

/-- What is written to the start of a run of zeros leaves the rest of them. -/
theorem memWrite_zeros (A : List Byte) {v : List Byte} {n : Nat} (h : v.length ≤ n) :
    memWrite (A ++ List.replicate n 0x00#8) A.length v = A ++ v ++ List.replicate (n - v.length) 0x00#8 := by
  rw [memWrite_eq _ _ _ (by simp only [List.length_append, List.length_replicate]; omega), List.take_left,
    List.drop_append, List.drop_replicate]
  simp

/-- Six bytes of numbers, then the data, then zeros up to the size of the shape (30_encoding R70; 45_scaling_surface R193). -/
theorem layRaw_defaultLongOverlay {a : I2cArgs} (h : a.data.length ≤ 16) :
    layRaw defaultLongOverlay 22 a
      = [BitVec.ofNat 8 a.addr, BitVec.ofNat 8 a.regLen, BitVec.ofNat 8 (a.regAddr % 256),
          BitVec.ofNat 8 (a.regAddr / 256), BitVec.ofNat 8 a.dataLen, if a.stop then 0x01#8 else 0x00#8]
        ++ a.data ++ List.replicate (16 - a.data.length) 0x00#8 := by
  rw [byte_ofNat_mod, ← stopByte_eq]
  have hnumbers : layRaw defaultLongOverlay 22 a
      = memWrite ([BitVec.ofNat 8 a.addr, BitVec.ofNat 8 a.regLen, BitVec.ofNat 8 a.regAddr,
          BitVec.ofNat 8 (a.regAddr / 256), BitVec.ofNat 8 a.dataLen, BitVec.ofNat 8 (if a.stop then 1 else 0)]
        ++ List.replicate 16 0x00#8) 6 (a.data.take 16) := rfl
  rw [hnumbers, List.take_of_length_le h]
  exact memWrite_zeros _ h

/-- Within the limits, an I2C pseudo-operation is the exchange of its code and of the bytes laid out (45_scaling_surface R193). -/
theorem i2cPlan_of_ok {cfg : Config} {addressed : Bool} {a : I2cArgs} {code : Byte} {raw : List Byte}
    (hmap : cfg.i2cMap = defaultFieldMap) (h : i2cArgsOk addressed a = true)
    (hraw : layRaw (overlayOf defaultFieldMap (shapeOf code)) (payloadSize (shapeOf code)) a = raw) :
    i2cPlan cfg code addressed a = some (.i2c code raw) := by
  rw [i2cPlan, if_pos h, hmap, hraw]

/-- A read and a write under the same limits: both have a plan within them, the bytes laid out at the default code, and neither has
one beyond them. -/
theorem i2cPlans_by_limits {cfg : Config} {addressed : Bool} {a : I2cArgs} {limits : Prop} [Decidable limits]
    {readCode writeCode : Byte} {readRaw writeRaw : List Byte} (hmap : cfg.i2cMap = defaultFieldMap)
    (hok : i2cArgsOk addressed a = true ↔ limits)
    (hread : layRaw (overlayOf defaultFieldMap (shapeOf readCode)) (payloadSize (shapeOf readCode)) a = readRaw)
    (hwrite : a.data.length ≤ 16 →
      layRaw (overlayOf defaultFieldMap (shapeOf writeCode)) (payloadSize (shapeOf writeCode)) a = writeRaw)
    (read write : Byte) :
    if limits then
      (read = readCode → i2cPlan cfg read addressed a = some (.i2c readCode readRaw))
        ∧ (write = writeCode → i2cPlan cfg write addressed a = some (.i2c writeCode writeRaw))
    else i2cPlan cfg read addressed a = none ∧ i2cPlan cfg write addressed a = none := by
  split_ifs with h
  · rw [← hok] at h
    refine ⟨?_, ?_⟩
    · rintro rfl
      exact i2cPlan_of_ok hmap h hread
    · rintro rfl
      exact i2cPlan_of_ok hmap h (hwrite (data_length_of_ok h))
  · rw [← hok] at h
    exact ⟨i2cPlan_of_not_ok h _, i2cPlan_of_not_ok h _⟩

/-! ## The fields of an answer -/

theorem readableOut_of_none {t : State} (h : t.fault = .none) : t.readableOut = t.out := if_pos h

/-- There are no fields without a result (10_state R20). -/
theorem i2cResultField_eq_none {t : State} (f : I2cField) (h : t.fault ≠ .none ∨ t.out.result = none) :
    i2cResultField f t = none := by
  have hres : t.readableOut.result = none := by
    unfold State.readableOut
    split_ifs with hf
    · exact h.resolve_left (not_not.mpr hf)
    · rfl
  rw [i2cResultField, hres]

/-- `t` holds the answer of an I2C exchange: the payload `p` of a response of shape `sh`. -/
structure I2cAnswer (sh : Shape) (p : List Byte) (t : State) : Prop where
  result : t.readableOut.result = some (.raw p)
  frame : ∃ F, t.readableFrame = some F ∧ F.shape = sh
  length : p.length = payloadSize sh

theorem I2cAnswer.field {sh : Shape} {p : List Byte} {t : State} (h : I2cAnswer sh p t) (f : I2cField) :
    i2cResultField f t = i2cField t.cfg.i2cMap sh f p := by
  obtain ⟨F, hF, rfl⟩ := h.frame
  rw [i2cResultField, h.result, hF]

/-- A field whose slot lies inside the payload has a value. -/
theorem i2cField_of_slot {m : I2cFieldMap} {sh : Shape} {f : I2cField} {slot : I2cSlot} {p : List Byte}
    (hslot : (overlayOf m sh).find? (fun s => s.field == f) = some slot) (hp : slot.offset + slot.width ≤ p.length) :
    i2cField m sh f p = some (fieldValue f ((p.drop slot.offset).take slot.width)) := by
  rw [i2cField, hslot]
  simp only [memRead, if_pos hp, Option.map_some]

/-- The number of a run of bytes, one byte after the other (30_encoding R71). -/
theorem leNat_take_succ (p : List Byte) (k n : Nat) :
    leNat ((p.drop k).take (n + 1)) = (p.getD k 0#8).toNat + 256 * leNat ((p.drop (k + 1)).take n) := by
  rcases Nat.lt_or_ge k p.length with hk | hk
  · rw [List.drop_eq_getElem_cons hk, List.take_succ_cons, leNat, List.getD_eq_getElem _ _ hk]
  · rw [List.drop_eq_nil_of_le hk, List.drop_eq_nil_of_le (by omega), List.getD_eq_default _ _ hk]
    simp [leNat]

@[simp] theorem leNat_take_one (p : List Byte) (k : Nat) : leNat ((p.drop k).take 1) = (p.getD k 0#8).toNat := by
  simp [leNat_take_succ, leNat]

@[simp] theorem leNat_take_two (p : List Byte) (k : Nat) :
    leNat ((p.drop k).take 2) = (p.getD k 0#8).toNat + 256 * (p.getD (k + 1) 0#8).toNat := by
  rw [leNat_take_succ p k 1, leNat_take_one]

/-! ## A completed exchange -/

/-- An exchange is refused, or runs its body for the target (44_exchange R152, R160; 60_exceptions R200). -/
theorem requestResponse_cases (admitted : Bool) (cmd : Byte) (p : List Byte) (result : FrameReg → Option Result)
    (s : State) :
    requestResponse admitted cmd p result s = s.refuse
      ∨ ∃ target, requestResponse admitted cmd p result s = (exchangeBody cmd target p result s.start).finish := by
  unfold requestResponse
  split
  next target rc ht hr =>
    obtain ⟨-, rfl⟩ := respCode_family hr
    exact (runOp_cases _ _ s).imp_right fun ⟨_, _, hrun⟩ => ⟨target, hrun⟩
  · exact .inl rfl

theorem fault_none_of_andThen {s : State} {f : State → State} (h : (s.andThen f).fault = .none) : s.fault = .none := by
  by_contra hf
  exact hf (by rwa [andThen_fault hf] at h)

/-- A body that ends without a fault has a well-formed frame of the response's shape in the register, and its result is what is made
of that frame, where the checksum holds (44_exchange R160, R162). -/
theorem exchangeBody_completed {cmd target : Byte} {p : List Byte} {result : FrameReg → Option Result} {s : State}
    (h : (exchangeBody cmd target p result s).fault = .none) :
    ∃ F, F.wellFormed = true ∧ F.shape = shapeOf (cmd + 0x10#8)
      ∧ (exchangeBody cmd target p result s).frame = regOf F
      ∧ (exchangeBody cmd target p result s).out.valid.isSome = true
      ∧ ∀ r, (exchangeBody cmd target p result s).out.result = some r → result (regOf F) = some r := by
  rw [exchangeBody] at h ⊢
  have hreceive := fault_none_of_andThen h
  have hsend := fault_none_of_andThen hreceive
  rw [andThen_none hsend] at hreceive
  obtain ⟨R, F, -, -, hwf, hshape, -, -, he⟩ := receiveHalf_completed hsend hreceive
  rw [andThen_none hsend, andThen_none hreceive, he]
  refine ⟨F, hwf, hshape, rfl, rfl, fun r hr => ?_⟩
  simp only [verdictValid] at hr
  split at hr
  · exact hr
  · cases hr

theorem payload_length_of_wellFormed {F : Frame} (h : F.wellFormed = true) : F.payload.length = payloadSize F.shape := by
  rcases wellFormed_cases h with ⟨c, dev, p, k, rfl, -, hp⟩ | ⟨m, c, dev, p, k, rfl, hp⟩
  · exact hp
  · exact hp

/-- What an I2C exchange that gave a result leaves: the payload of a frame of the response's shape, for the host to read. -/
theorem i2cAnswer_of_exec {s t : State} {command : Int} {raw p : List Byte}
    (hx : exec (.i2cExchange command raw) s = .next t) (hf : t.fault = .none) (hr : t.out.result = some (.raw p)) :
    I2cAnswer (shapeOf (byteOf command + 0x10#8)) p t := by
  rw [exec_i2cExchange, Host.Outcome.next.injEq] at hx
  rcases requestResponse_cases (i2cAdmits command raw) (byteOf command) raw i2cResult s with hrun | ⟨target, hrun⟩
  · rw [← hx, hrun] at hf
    cases hf
  · have hcompleted := exchangeBody_completed (cmd := byteOf command) (target := target) (p := raw)
      (result := i2cResult) (s := s.start)
    rw [hrun] at hx
    generalize exchangeBody (byteOf command) target raw i2cResult s.start = u at hx hcompleted
    subst hx
    obtain ⟨F, hwf, hshape, hframe, hvalid, hresult⟩ := hcompleted hf
    obtain rfl : F.payload = p := by
      have hpayload := hresult _ hr
      simpa [i2cResult, regOf] using hpayload
    refine ⟨by rw [readableOut_of_none hf]; exact hr, ⟨F, readableFrame_eq hf hframe (.inr (.inr hvalid)), hshape⟩, ?_⟩
    rw [← hshape]
    exact payload_length_of_wellFormed hwf

/-! ## The default overlay on an answer -/

/-- The fields of a 22-byte answer (30_encoding R70). -/
theorem longAnswer_fields {sh : Shape} {p : List Byte} {t : State} (h : I2cAnswer sh p t)
    (hoverlay : overlayOf t.cfg.i2cMap sh = defaultLongOverlay) (hsize : payloadSize sh = 22) :
    p.length = 22
      ∧ i2cResultField .addr t = some (.number (p.getD 0 0#8).toNat)
      ∧ i2cResultField .regLen t = some (.number (p.getD 1 0#8).toNat)
      ∧ i2cResultField .regAddr t = some (.number ((p.getD 2 0#8).toNat + 256 * (p.getD 3 0#8).toNat))
      ∧ i2cResultField .dataLen t = some (.number (p.getD 4 0#8).toNat)
      ∧ i2cResultField .stop t = some (.number (p.getD 5 0#8).toNat)
      ∧ i2cResultField .data t = some (.bytes (p.drop 6)) := by
  have hlen : p.length = 22 := h.length.trans hsize
  have hfield : ∀ slot ∈ defaultLongOverlay, i2cResultField slot.field t
      = some (fieldValue slot.field ((p.drop slot.offset).take slot.width)) := by
    intro slot hslot
    obtain ⟨hfind, hinside⟩ : defaultLongOverlay.find? (fun s => s.field == slot.field) = some slot
        ∧ slot.offset + slot.width ≤ 22 := by
      revert slot
      decide
    rw [h.field]
    exact i2cField_of_slot (hoverlay ▸ hfind) (hlen ▸ hinside)
  simp only [defaultLongOverlay, List.forall_mem_cons, List.not_mem_nil, false_imp_iff, implies_true, and_true,
    fieldValue, leNat_take_one, leNat_take_two] at hfield
  have hdata : (p.drop 6).take 16 = p.drop 6 := List.take_of_length_le (by rw [List.length_drop]; omega)
  rw [hdata] at hfield
  exact ⟨hlen, hfield⟩

/-- The one field of a one-byte answer (30_encoding R70). -/
theorem shortAnswer_field {sh : Shape} {p : List Byte} {t : State} (h : I2cAnswer sh p t)
    (hoverlay : overlayOf t.cfg.i2cMap sh = [⟨.result, 0, 1⟩]) (hsize : payloadSize sh = 1) :
    p.length = 1 ∧ i2cResultField .result t = some (.number (p.getD 0 0#8).toNat) := by
  have hlen : p.length = 1 := h.length.trans hsize
  refine ⟨hlen, ?_⟩
  rw [h.field, i2cField_of_slot (slot := ⟨.result, 0, 1⟩) (by rw [hoverlay]; rfl) hlen.ge, fieldValue, leNat_take_one]

/-! ## A step that takes a pseudo-operation with a plan -/

theorem step_of_plan {s : State} {op : SurfaceOp} {rest : List Input} {pl : Plan} (hin : s.inputs = .surface op :: rest)
    (hplan : plan s.cfg op = some pl) : step s = .next (runPlan pl { s with inputs := rest }) := by
  rw [step_of_surface hin]
  simp only [surfaceState, hplan]

theorem step_of_no_plan {s : State} {op : SurfaceOp} {rest : List Input} (hin : s.inputs = .surface op :: rest)
    (hplan : plan s.cfg op = none) : step s = .next { s with inputs := rest, fault := .refused } := by
  rw [step_of_surface hin]
  simp only [surfaceState, hplan]
  rfl

theorem step_of_i2cPlan {s : State} {op : SurfaceOp} {rest : List Input} {code : Byte} {raw : List Byte}
    (hin : s.inputs = .surface op :: rest) (hplan : plan s.cfg op = some (.i2c code raw)) :
    step s = exec (.i2cExchange code.toNat raw) { s with inputs := rest } := step_of_plan hin hplan

theorem step_of_statusPlan {s : State} {op : SurfaceOp} {rest : List Input} {code : Byte}
    (hin : s.inputs = .surface op :: rest) (hplan : plan s.cfg op = some (.status code)) :
    step s = exec (.requestStatus code.toNat) { s with inputs := rest } := step_of_plan hin hplan

/-! ## The statement -/

/-- Settles O58: the plans are the arguments laid out by the default overlay, the steps carry them out, and an answer is read back
through the same overlay. -/
theorem surfaceReadsExpandToExchanges : Obligations.SurfaceReadsExpandToExchanges := by
  refine ⟨fun cfg a hmap => ⟨?_, ?_⟩, fun s a rest op _ hin => ⟨fun code raw => step_of_i2cPlan hin, step_of_no_plan hin⟩,
    fun s t cmd raw p hmap hx hf hr => ?_, fun t f => i2cResultField_eq_none f, fun s rest row hrow hin => ?_⟩
  · exact i2cPlans_by_limits (readCode := 0x60#8) (writeCode := 0x61#8) hmap (i2cArgsOk_addressed_iff a)
      (layRaw_rdregReq a) layRaw_defaultLongOverlay _ _
  · exact i2cPlans_by_limits (readCode := 0x62#8) (writeCode := 0x63#8) hmap (i2cArgsOk_raw_iff a)
      (layRaw_rdrawReq a) layRaw_defaultLongOverlay _ _
  · have hanswer := i2cAnswer_of_exec hx hf hr
    rw [byteOf_toNat] at hanswer
    obtain ⟨hcfg, -⟩ := exec_keeps hx (by simp)
    rw [← hcfg] at hmap
    refine ⟨?_, ?_⟩
    · rintro (rfl | rfl) <;> exact longAnswer_fields hanswer (by rw [hmap]; rfl) rfl
    · rintro (rfl | rfl) <;> exact shortAnswer_field hanswer (by rw [hmap]; rfl) rfl
  · have hplan : plan s.cfg row.1 = some (.status row.2) := by
      clear hin
      revert row
      simp only [List.forall_mem_cons, List.not_mem_nil, false_imp_iff, implies_true, plan, and_self]
    exact step_of_statusPlan hin hplan

end Sys2Proof.Machine
end

section
/-! Refusal (60_exceptions R200, R207, R208). Whether an operation is refused is settled before its body starts; a body starts without a
fault and raises only the faults of the transport, of the decode pass and of the response checks. So a run that ends refused is the
refusal. -/

namespace Sys2Proof.Machine

/-! ## What leaves the fault output alone -/

@[simp] theorem reportPass_fault (s : State) : s.reportPass.fault = s.fault := rfl
@[simp] theorem verdictOk_fault (a b d : Int) (s : State) : (verdictOk a b d s).fault = s.fault := rfl
@[simp] theorem verdictValid_fault (result : FrameReg → Option Result) (s : State) :
    (verdictValid result s).fault = s.fault := rfl

theorem fault_andThen_of_keeps {f : State → State} (hf : ∀ u, (f u).fault = u.fault) (s : State) :
    (s.andThen f).fault = s.fault := by
  by_cases h0 : s.fault = .none
  · rw [andThen_none h0, hf]
  · rw [andThen_fault h0]

/-! ## No body ends refused -/

theorem decodeBody_fault_ne_refused (B : List Byte) {s : State} (h0 : s.fault = .none) :
    (decodeBody B s).fault ≠ .refused := by
  rw [decodeBody, fault_andThen_of_keeps reportPass_fault, State.runPass]
  split
  · simp [h0]
  · obtain ⟨-, hpass, -⟩ := decodePass_post s.cfg.strictUnknown B
    exact hpass

theorem sendHalf_fault_ne_refused (F : Frame) {s : State} (h0 : s.fault = .none) : (sendHalf F s).fault ≠ .refused := by
  obtain ⟨-, hfault, -⟩ := sendHalf_post F h0
  rw [hfault]
  split <;> simp

theorem receiveHalf_fault_ne_refused (len : Nat) (sh : Shape) {s : State} (h0 : s.fault = .none) :
    (receiveHalf len sh s).fault ≠ .refused := by
  obtain ⟨-, hfault, -⟩ := receiveHalf_post len sh h0
  exact hfault

theorem sendThenReceive_fault_ne_refused (F : Frame) (len : Nat) (sh : Shape) {s : State} (h0 : s.fault = .none) :
    ((sendHalf F s).andThen (receiveHalf len sh)).fault ≠ .refused := by
  by_cases hsend : (sendHalf F s).fault = .none
  · rw [andThen_none hsend]
    exact receiveHalf_fault_ne_refused len sh hsend
  · rw [andThen_fault hsend]
    exact sendHalf_fault_ne_refused F h0

/-! ## What ends refused is the refusal -/

/-- Of the ways an instruction can run, only the refusal ends refused. -/
theorem Ran.eq_refuse_of_refused {i : Instr} {s t : State} (r : Ran i s t) (ht : t.fault = .refused) : t = s.refuse := by
  cases r with
  | refused => rfl
  | checksum S h => cases ht
  | length n h => cases ht
  | encoded F hw h => cases ht
  | targeted id hi h => cases ht
  | decoded B h => exact absurd ht (decodeBody_fault_ne_refused B s.start_fault)
  | sent F hw hi h => exact absurd ht (sendHalf_fault_ne_refused F s.start_fault)
  | verified len hl a b d hi h =>
    rw [State.finish_fault, fault_andThen_of_keeps (verdictOk_fault a b d)] at ht
    exact absurd ht (receiveHalf_fault_ne_refused len _ s.start_fault)
  | exchanged F hw len hl sh result hi h =>
    rw [State.finish_fault, fault_andThen_of_keeps (verdictValid_fault result)] at ht
    exact absurd ht (sendThenReceive_fault_ne_refused F len sh s.start_fault)

/-- Settles O40: an instruction that ends refused ran to the refusal, which writes the fault output alone. -/
theorem refusalChangesFaultAlone : Obligations.RefusalChangesFaultAlone :=
  fun _ _ _ h hfault => (ran_of_exec h).eq_refuse_of_refused hfault

end Sys2Proof.Machine
end
